-- ==== Sys2Proof/Word.lean ====
section
/-! DEFINITION. The word type, the field widths of spec/00_scope.md R7, and text. -/

namespace Sys2Proof

/-- The instruction word `instr[31:0]` (R8; WORD_WIDTH of R7). -/
abbrev Word := BitVec 32

/-- An opcode, `instr[31:26]` (OPCODE_WIDTH of R7). -/
abbrev Opcode := BitVec 6

/-- A function code, `instr[5:0]` (FUNCT_WIDTH of R7). -/
abbrev Funct := BitVec 6

/-- A register index, 5 bits (REG_INDEX_WIDTH of R7). -/
abbrev RegIndex := BitVec 5

/-- A shift amount, 5 bits (SHAMT_WIDTH of R7). -/
abbrev Shamt := BitVec 5

/-- An immediate, 16 bits (IMM_WIDTH of R7). -/
abbrev Imm16 := BitVec 16

/-- A jump address field, 26 bits (ADDR_WIDTH of R7). -/
abbrev Addr26 := BitVec 26

/-- One byte of a word that a host keeps in byte storage (R43). -/
abbrev Byte := BitVec 8

/-- Text: a sequence of characters, first character first. PRESUMED (log entry 11): each character of a line
counts as one; unsafe for a character outside ASCII. -/
abbrev Text := List Char

end Sys2Proof
end

