-- ==== Sys2Proof/Syntax.lean ====
section
/-! DEFINITION. The 24 instructions (spec/00_scope.md R2, spec/opcode_table.json), and the names the
decoder gives to formats, outcomes, mnemonics and renderers (spec/10_state.md R25, D4). -/

namespace Sys2Proof

/-- The 24 instructions of R2. Each constructor holds every field of its format (R62 to R64), the
fields the text does not print too: the field ports carry them (R26), and no field is checked (R70). -/
inductive Instr where
  | add (rs rt rd : RegIndex) (shamt : Shamt)
  | sub (rs rt rd : RegIndex) (shamt : Shamt)
  | and (rs rt rd : RegIndex) (shamt : Shamt)
  | or (rs rt rd : RegIndex) (shamt : Shamt)
  | xor (rs rt rd : RegIndex) (shamt : Shamt)
  | sll (rs rt rd : RegIndex) (shamt : Shamt)
  | srl (rs rt rd : RegIndex) (shamt : Shamt)
  | jr (rs rt rd : RegIndex) (shamt : Shamt)
  | lb (rs rt : RegIndex) (imm : Imm16)
  | lh (rs rt : RegIndex) (imm : Imm16)
  | lw (rs rt : RegIndex) (imm : Imm16)
  | sb (rs rt : RegIndex) (imm : Imm16)
  | sh (rs rt : RegIndex) (imm : Imm16)
  | sw (rs rt : RegIndex) (imm : Imm16)
  | addi (rs rt : RegIndex) (imm : Imm16)
  | andi (rs rt : RegIndex) (imm : Imm16)
  | ori (rs rt : RegIndex) (imm : Imm16)
  | xori (rs rt : RegIndex) (imm : Imm16)
  | liu (rs rt : RegIndex) (imm : Imm16)
  | beq (rs rt : RegIndex) (imm : Imm16)
  | bne (rs rt : RegIndex) (imm : Imm16)
  | blez (rs rt : RegIndex) (imm : Imm16)
  | bgtz (rs rt : RegIndex) (imm : Imm16)
  | j (address : Addr26)
  deriving DecidableEq, Repr

/-- The port `fmt` (R25, R65, R93): `none` is the spec's `NONE`. -/
inductive Format where
  | register
  | immediate
  | jump
  | none
  deriving DecidableEq, Repr

/-- The port `status` (R25, R211). Code 3 is never driven, so it has no constructor. -/
inductive Status where
  | ok
  | invalidOpcode
  | invalidFunct
  deriving DecidableEq, Repr

/-- The 24 mnemonics, in the index order of R87. -/
inductive Mnemonic where
  | lb | lh | lw | sb | sh | sw
  | addi | andi | ori | xori | liu
  | beq | bne | blez | bgtz
  | j
  | add | sub | and | or | xor | sll | srl | jr
  deriving DecidableEq, Repr

/-- The eight renderers, in the index order of R77 (C1: eight, not seven). -/
inductive Renderer where
  | registerDefault
  | registerShift
  | registerJump
  | jumpTarget
  | immediateMemory
  | immediateArithmetic
  | immediateBranch
  | immediateBranchSingle
  deriving DecidableEq, Repr

/-- A defined entry of `OPC` (R22, R66). The entry of opcode `000000` holds the format alone (D21). -/
inductive OpcEntry where
  | register
  | immediate (mnem : Mnemonic) (rend : Renderer)
  | jump (mnem : Mnemonic) (rend : Renderer)
  deriving DecidableEq, Repr

/-- A defined entry of `FUN` (R23, R67). -/
structure FunEntry where
  mnem : Mnemonic
  rend : Renderer
  deriving DecidableEq, Repr

/-- `OPC` (R22): 64 entries indexed by the opcode. -/
abbrev OpcTable := Vector (Option OpcEntry) 64

/-- `FUN` (R23): 64 entries indexed by the function code. -/
abbrev FunTable := Vector (Option FunEntry) 64

/-- `REGN` (R24): 32 entries indexed by the register index. -/
abbrev RegNames := Vector (Option Text) 32

end Sys2Proof
end

