-- ==== Sys2Proof/Decode.lean ====
section
/-! DEFINITION. The field slices (spec/30_encoding.md R61), the tables `OPC` and `FUN` (R66 to R69),
the decoder from a word to an instruction or a named rejection, the encoder, and the match and mask of
every row of spec/opcode_table.json. -/

namespace Sys2Proof

/-! ## Field slices (R61, by the bit numbering of R8 and R9) -/

/-- `instr[31:26]`. -/
def opcodeOf (w : Word) : Opcode := w.extractLsb' 26 6

/-- `instr[25:21]`. -/
def rsOf (w : Word) : RegIndex := w.extractLsb' 21 5

/-- `instr[20:16]`. -/
def rtOf (w : Word) : RegIndex := w.extractLsb' 16 5

/-- `instr[15:11]`. -/
def rdOf (w : Word) : RegIndex := w.extractLsb' 11 5

/-- `instr[10:6]`. -/
def shamtOf (w : Word) : Shamt := w.extractLsb' 6 5

/-- `instr[5:0]`. -/
def functOf (w : Word) : Funct := w.extractLsb' 0 6

/-- `instr[15:0]`. -/
def immOf (w : Word) : Imm16 := w.extractLsb' 0 16

/-- `instr[25:0]`. -/
def addressOf (w : Word) : Addr26 := w.extractLsb' 0 26

/-! ## The dispatch tables

Each table is written as rows of eight entries. A row's comment is the upper three bits of its codes,
and its entries are the codes whose lower three bits are `000` to `111`. -/

/-- The entries of `OPC` in code order (R66; those that are `none` are R68's 47 undefined opcodes). -/
def opcRows : List (Option OpcEntry) :=
    /- 000 -/ [some .register, none, some (.jump .j .jumpTarget), none,
      some (.immediate .beq .immediateBranch), some (.immediate .bne .immediateBranch),
      some (.immediate .blez .immediateBranchSingle), some (.immediate .bgtz .immediateBranchSingle)] ++
    /- 001 -/ [some (.immediate .addi .immediateArithmetic), none, none, none,
      some (.immediate .andi .immediateArithmetic), some (.immediate .ori .immediateArithmetic),
      some (.immediate .xori .immediateArithmetic), some (.immediate .liu .immediateArithmetic)] ++
    /- 010 -/ [none, none, none, none, none, none, none, none] ++
    /- 011 -/ [none, none, none, none, none, none, none, none] ++
    /- 100 -/ [some (.immediate .lb .immediateMemory), some (.immediate .lh .immediateMemory), none,
      some (.immediate .lw .immediateMemory), none, none, none, none] ++
    /- 101 -/ [some (.immediate .sb .immediateMemory), some (.immediate .sh .immediateMemory), none,
      some (.immediate .sw .immediateMemory), none, none, none, none] ++
    /- 110 -/ [none, none, none, none, none, none, none, none] ++
    /- 111 -/ [none, none, none, none, none, none, none, none]

/-- The contents of `OPC`. -/
def opcRom : OpcTable := ⟨opcRows.toArray, rfl⟩

/-- The entries of `FUN` in code order (R67; those that are `none` are R69's 56 undefined function
codes). -/
def funRows : List (Option FunEntry) :=
    /- 000 -/ [some ⟨.sll, .registerShift⟩, none, some ⟨.srl, .registerShift⟩, none,
      none, none, none, none] ++
    /- 001 -/ [some ⟨.jr, .registerJump⟩, none, none, none, none, none, none, none] ++
    /- 010 -/ [none, none, none, none, none, none, none, none] ++
    /- 011 -/ [none, none, none, none, none, none, none, none] ++
    /- 100 -/ [some ⟨.add, .registerDefault⟩, none, some ⟨.sub, .registerDefault⟩, none,
      some ⟨.and, .registerDefault⟩, some ⟨.or, .registerDefault⟩,
      some ⟨.xor, .registerDefault⟩, none] ++
    /- 101 -/ [none, none, none, none, none, none, none, none] ++
    /- 110 -/ [none, none, none, none, none, none, none, none] ++
    /- 111 -/ [none, none, none, none, none, none, none, none]

/-- The contents of `FUN`. -/
def funRom : FunTable := ⟨funRows.toArray, rfl⟩

/-- `OPC[o]` (R11, R22). -/
def opcEntry (t : OpcTable) (o : Opcode) : Option OpcEntry := t[o.toNat]'o.isLt

/-- `FUN[f]` (R11, R23). -/
def funEntry (t : FunTable) (f : Funct) : Option FunEntry := t[f.toNat]'f.isLt

/-! ## The decoder -/

/-- What a word decodes to: an instruction, or one of the two rejections of R92 and R95, by name. -/
inductive Decoded where
  | instr (i : Instr)
  | invalidOpcode
  | invalidFunct
  deriving DecidableEq, Repr

/-- The instruction a mnemonic names, with the fields of its format sliced from the word (R94, R96, R97). -/
def instrOf (m : Mnemonic) (w : Word) : Instr :=
  match m with
  | .lb => .lb (rsOf w) (rtOf w) (immOf w)
  | .lh => .lh (rsOf w) (rtOf w) (immOf w)
  | .lw => .lw (rsOf w) (rtOf w) (immOf w)
  | .sb => .sb (rsOf w) (rtOf w) (immOf w)
  | .sh => .sh (rsOf w) (rtOf w) (immOf w)
  | .sw => .sw (rsOf w) (rtOf w) (immOf w)
  | .addi => .addi (rsOf w) (rtOf w) (immOf w)
  | .andi => .andi (rsOf w) (rtOf w) (immOf w)
  | .ori => .ori (rsOf w) (rtOf w) (immOf w)
  | .xori => .xori (rsOf w) (rtOf w) (immOf w)
  | .liu => .liu (rsOf w) (rtOf w) (immOf w)
  | .beq => .beq (rsOf w) (rtOf w) (immOf w)
  | .bne => .bne (rsOf w) (rtOf w) (immOf w)
  | .blez => .blez (rsOf w) (rtOf w) (immOf w)
  | .bgtz => .bgtz (rsOf w) (rtOf w) (immOf w)
  | .j => .j (addressOf w)
  | .add => .add (rsOf w) (rtOf w) (rdOf w) (shamtOf w)
  | .sub => .sub (rsOf w) (rtOf w) (rdOf w) (shamtOf w)
  | .and => .and (rsOf w) (rtOf w) (rdOf w) (shamtOf w)
  | .or => .or (rsOf w) (rtOf w) (rdOf w) (shamtOf w)
  | .xor => .xor (rsOf w) (rtOf w) (rdOf w) (shamtOf w)
  | .sll => .sll (rsOf w) (rtOf w) (rdOf w) (shamtOf w)
  | .srl => .srl (rsOf w) (rtOf w) (rdOf w) (shamtOf w)
  | .jr => .jr (rsOf w) (rtOf w) (rdOf w) (shamtOf w)

/-- The dispatch of R91 to R97 with the tables `opc` and `fn`: the opcode first; the function code only
under the register entry; total on every word (R107). -/
def decodeWith (opc : OpcTable) (fn : FunTable) (w : Word) : Decoded :=
  match opcEntry opc (opcodeOf w) with
  | none => .invalidOpcode
  | some .register =>
    match funEntry fn (functOf w) with
    | none => .invalidFunct
    | some e => .instr (instrOf e.mnem w)
  | some (.immediate m _) => .instr (instrOf m w)
  | some (.jump m _) => .instr (instrOf m w)

/-- The decoder with the table contents of the spec. -/
def decode (w : Word) : Decoded := decodeWith opcRom funRom w

/-- The instruction the decoder reads from `nbits` bits of value `w`, bit 0 the least significant bit of
the word; every bit above `nbits` is 0. -/
def decodeTableWord (nbits w : Nat) : Option Instr :=
  match decode (BitVec.ofNat 32 (w % 2 ^ nbits)) with
  | .instr i => some i
  | .invalidOpcode => none
  | .invalidFunct => none

/-! ## The encoder -/

/-- The register layout (R62): `000000 | rs | rt | rd | shamt | func`. -/
def registerWord (rs rt rd : RegIndex) (shamt : Shamt) (fn : Funct) : Word :=
  (0b000000#6 : Opcode) ++ rs ++ rt ++ rd ++ shamt ++ fn

/-- The immediate layout (R63): `opcode | rs | rt | imm`. -/
def immediateWord (op : Opcode) (rs rt : RegIndex) (imm : Imm16) : Word :=
  op ++ rs ++ rt ++ imm

/-- The jump layout (R64): `opcode | address`. -/
def jumpWord (op : Opcode) (address : Addr26) : Word :=
  op ++ address

/-- The word of an instruction, with the opcodes of R66 and the function codes of R67. -/
def encode : Instr → Word
  | .add rs rt rd shamt => registerWord rs rt rd shamt 0b100000#6
  | .sub rs rt rd shamt => registerWord rs rt rd shamt 0b100010#6
  | .and rs rt rd shamt => registerWord rs rt rd shamt 0b100100#6
  | .or rs rt rd shamt => registerWord rs rt rd shamt 0b100101#6
  | .xor rs rt rd shamt => registerWord rs rt rd shamt 0b100110#6
  | .sll rs rt rd shamt => registerWord rs rt rd shamt 0b000000#6
  | .srl rs rt rd shamt => registerWord rs rt rd shamt 0b000010#6
  | .jr rs rt rd shamt => registerWord rs rt rd shamt 0b001000#6
  | .lb rs rt imm => immediateWord 0b100000#6 rs rt imm
  | .lh rs rt imm => immediateWord 0b100001#6 rs rt imm
  | .lw rs rt imm => immediateWord 0b100011#6 rs rt imm
  | .sb rs rt imm => immediateWord 0b101000#6 rs rt imm
  | .sh rs rt imm => immediateWord 0b101001#6 rs rt imm
  | .sw rs rt imm => immediateWord 0b101011#6 rs rt imm
  | .addi rs rt imm => immediateWord 0b001000#6 rs rt imm
  | .andi rs rt imm => immediateWord 0b001100#6 rs rt imm
  | .ori rs rt imm => immediateWord 0b001101#6 rs rt imm
  | .xori rs rt imm => immediateWord 0b001110#6 rs rt imm
  | .liu rs rt imm => immediateWord 0b001111#6 rs rt imm
  | .beq rs rt imm => immediateWord 0b000100#6 rs rt imm
  | .bne rs rt imm => immediateWord 0b000101#6 rs rt imm
  | .blez rs rt imm => immediateWord 0b000110#6 rs rt imm
  | .bgtz rs rt imm => immediateWord 0b000111#6 rs rt imm
  | .j address => jumpWord 0b000010#6 address

/-! ## The rows of spec/opcode_table.json -/

/-- The mnemonic of an instruction. -/
def mnemonicOf : Instr → Mnemonic
  | .add _ _ _ _ => .add
  | .sub _ _ _ _ => .sub
  | .and _ _ _ _ => .and
  | .or _ _ _ _ => .or
  | .xor _ _ _ _ => .xor
  | .sll _ _ _ _ => .sll
  | .srl _ _ _ _ => .srl
  | .jr _ _ _ _ => .jr
  | .lb _ _ _ => .lb
  | .lh _ _ _ => .lh
  | .lw _ _ _ => .lw
  | .sb _ _ _ => .sb
  | .sh _ _ _ => .sh
  | .sw _ _ _ => .sw
  | .addi _ _ _ => .addi
  | .andi _ _ _ => .andi
  | .ori _ _ _ => .ori
  | .xori _ _ _ => .xori
  | .liu _ _ _ => .liu
  | .beq _ _ _ => .beq
  | .bne _ _ _ => .bne
  | .blez _ _ _ => .blez
  | .bgtz _ _ _ => .bgtz
  | .j _ => .j

/-- The "mask" of a row: the opcode bits, and the function code bits of a register row. -/
def rowMask : Mnemonic → Word
  | .add | .sub | .and | .or | .xor | .sll | .srl | .jr => 0xFC00003F#32
  | .lb | .lh | .lw | .sb | .sh | .sw => 0xFC000000#32
  | .addi | .andi | .ori | .xori | .liu => 0xFC000000#32
  | .beq | .bne | .blez | .bgtz => 0xFC000000#32
  | .j => 0xFC000000#32

/-- The "match" of a row. -/
def rowMatch : Mnemonic → Word
  | .add => 0x00000020#32
  | .sub => 0x00000022#32
  | .and => 0x00000024#32
  | .or => 0x00000025#32
  | .xor => 0x00000026#32
  | .sll => 0x00000000#32
  | .srl => 0x00000002#32
  | .jr => 0x00000008#32
  | .lb => 0x80000000#32
  | .lh => 0x84000000#32
  | .lw => 0x8C000000#32
  | .sb => 0xA0000000#32
  | .sh => 0xA4000000#32
  | .sw => 0xAC000000#32
  | .addi => 0x20000000#32
  | .andi => 0x30000000#32
  | .ori => 0x34000000#32
  | .xori => 0x38000000#32
  | .liu => 0x3C000000#32
  | .beq => 0x10000000#32
  | .bne => 0x14000000#32
  | .blez => 0x18000000#32
  | .bgtz => 0x1C000000#32
  | .j => 0x08000000#32

/-- Every mnemonic, in the index order of R87. -/
def allMnemonics : List Mnemonic :=
  [.lb, .lh, .lw, .sb, .sh, .sw, .addi, .andi, .ori, .xori, .liu, .beq, .bne, .blez, .bgtz, .j,
   .add, .sub, .and, .or, .xor, .sll, .srl, .jr]

end Sys2Proof
end

