-- ==== Sys2Proof/Machine/Tables.lean ====
section
/-! DEFINITION. The default of REG_NAMES (spec/30_encoding.md R74), the mnemonic texts and the port
codes (R77, R87; spec/10_state.md R25), and the formats (R65). -/

namespace Sys2Proof.Machine

/-- The entries of the default REG_NAMES in index order (R74); the other 15 have no name (R75). -/
def defaultNameRows : List (Option Text) :=
    [some "$zero".toList, none, none, none, none, none, none, none] ++
    [some "$t0".toList, some "$t1".toList, some "$t2".toList, some "$t3".toList,
      some "$t4".toList, some "$t5".toList, some "$t6".toList, some "$t7".toList] ++
    [some "$s0".toList, some "$s1".toList, some "$s2".toList, some "$s3".toList,
      some "$s4".toList, some "$s5".toList, some "$s6".toList, some "$s7".toList] ++
    [none, none, none, none, none, none, none, none]

/-- The default REG_NAMES (R74, D8): `$zero` at 0, `$t0` to `$t7` at 8 to 15, `$s0` to `$s7` at 16 to 23;
the other 15 indices have no name (R75). `$t0`, `$t1` and `$t2` are pinned by the source.
DESIGN CHOICE (the spec's own, D8, from general knowledge; log entry 1) for the other fourteen: unsafe. -/
def defaultRegNames : RegNames := ⟨defaultNameRows.toArray, rfl⟩

/-- The mnemonic text of R87: lowercase, as the document spells it (`liu`, N13). -/
def mnemonicText : Mnemonic → Text
  | .lb => "lb".toList
  | .lh => "lh".toList
  | .lw => "lw".toList
  | .sb => "sb".toList
  | .sh => "sh".toList
  | .sw => "sw".toList
  | .addi => "addi".toList
  | .andi => "andi".toList
  | .ori => "ori".toList
  | .xori => "xori".toList
  | .liu => "liu".toList
  | .beq => "beq".toList
  | .bne => "bne".toList
  | .blez => "blez".toList
  | .bgtz => "bgtz".toList
  | .j => "j".toList
  | .add => "add".toList
  | .sub => "sub".toList
  | .and => "and".toList
  | .or => "or".toList
  | .xor => "xor".toList
  | .sll => "sll".toList
  | .srl => "srl".toList
  | .jr => "jr".toList

/-- The index of a mnemonic on the port `mnem` (R87). -/
def mnemonicIndex : Mnemonic → BitVec 5
  | .lb => 0#5
  | .lh => 1#5
  | .lw => 2#5
  | .sb => 3#5
  | .sh => 4#5
  | .sw => 5#5
  | .addi => 6#5
  | .andi => 7#5
  | .ori => 8#5
  | .xori => 9#5
  | .liu => 10#5
  | .beq => 11#5
  | .bne => 12#5
  | .blez => 13#5
  | .bgtz => 14#5
  | .j => 15#5
  | .add => 16#5
  | .sub => 17#5
  | .and => 18#5
  | .or => 19#5
  | .xor => 20#5
  | .sll => 21#5
  | .srl => 22#5
  | .jr => 23#5

/-- The index of a renderer on the port `rend` (R77). -/
def rendererIndex : Renderer → BitVec 4
  | .registerDefault => 0#4
  | .registerShift => 1#4
  | .registerJump => 2#4
  | .jumpTarget => 3#4
  | .immediateMemory => 4#4
  | .immediateArithmetic => 5#4
  | .immediateBranch => 6#4
  | .immediateBranchSingle => 7#4

/-- The code on the port `fmt` (R25): R 0, I 1, J 2, NONE 3. -/
def formatCode : Format → BitVec 2
  | .register => 0#2
  | .immediate => 1#2
  | .jump => 2#2
  | .none => 3#2

/-- The code on the port `status` (R25, R211): OK 0, INVALID_OPCODE 1, INVALID_FUNCT 2. -/
def statusCode : Status → BitVec 2
  | .ok => 0#2
  | .invalidOpcode => 1#2
  | .invalidFunct => 2#2

/-- The code on the port `mnem` (R25): the index, or NONE = 31. -/
def mnemCode : Option Mnemonic → BitVec 5
  | some m => mnemonicIndex m
  | none => 31#5

/-- The code on the port `rend` (R25): the index, or NONE = 15. -/
def rendCode : Option Renderer → BitVec 4
  | some r => rendererIndex r
  | none => 15#4

/-- The format of an `OPC` lookup (R93): `NONE` where the opcode is undefined. -/
def entryFormat : Option OpcEntry → Format
  | none => .none
  | some .register => .register
  | some (.immediate _ _) => .immediate
  | some (.jump _ _) => .jump

end Sys2Proof.Machine
end

