-- ==== Sys2Proof/Machine/Operands.lean ====
section
/-! DEFINITION. The operand forms the text prints: register names (spec/40_decode_pipeline.md R102),
the immediate sign-extender (R98 to R100) and decimal text (R101). -/

namespace Sys2Proof.Machine

/-! ## Register names -/

/-- `REGN[r]` (R11, R24). -/
def regName (t : RegNames) (r : RegIndex) : Option Text := t[r.toNat]'r.isLt

/-- The character of one bit. -/
def bitChar (b : Bool) : Char := if b then '1' else '0'

/-- The five characters of a register index, most significant first (R102). -/
def indexBits (r : RegIndex) : Text :=
  [bitChar (r.getLsbD 4), bitChar (r.getLsbD 3), bitChar (r.getLsbD 2), bitChar (r.getLsbD 1),
   bitChar (r.getLsbD 0)]

/-- `reg(r)` (R102, D7): the name, or `$` and the five raw bits where the index has none. -/
def regText (t : RegNames) (r : RegIndex) : Text :=
  match regName t r with
  | some name => name
  | none => '$' :: indexBits r

/-! ## The immediate sign-extender -/

/-- `sint(imm)` (R71, R98): two's complement for the 16-bit field. -/
def sintImm (imm : Imm16) : Int :=
  if imm.msb then (imm.toNat : Int) - 65536 else (imm.toNat : Int)

/-- The port `imm_sext` (R99, D5): `sext_32` of the immediate. -/
def sextImm (imm : Imm16) : BitVec 32 := imm.signExtend 32

/-! ## Decimal text -/

/-- The digit character of `d`, for `d` below 10. -/
def digitChar (d : Nat) : Char := Char.ofNat (48 + d)

/-- The decimal digits of `n` before `acc`, at most `fuel` of them. -/
def digitsAux : Nat → Nat → Text → Text
  | 0, _, acc => acc
  | fuel + 1, n, acc =>
    if n < 10 then digitChar n :: acc else digitsAux fuel (n / 10) (digitChar (n % 10) :: acc)

/-- `dec(n)` for a natural number (R101, D9): no number has more decimal digits than bits. -/
def decNat (n : Nat) : Text := digitsAux (n.log2 + 1) n []

/-- `dec(n)` (R101, D9): `-` before the digits of a negative number, nothing else added. -/
def decInt : Int → Text
  | .ofNat n => decNat n
  | .negSucc n => '-' :: decNat (n + 1)

/-! ## The printed numbers -/

/-- The immediate as printed (R71): signed decimal. -/
def immText (imm : Imm16) : Text := decInt (sintImm imm)

/-- The shift amount as printed (R72): unsigned decimal. -/
def shamtText (a : Shamt) : Text := decNat a.toNat

/-- The jump address as printed (R73): unsigned decimal. -/
def addressText (a : Addr26) : Text := decNat a.toNat

end Sys2Proof.Machine
end

