-- ==== Sys2Proof/Machine/Flags.lean ====
section
/-! DEFINITION. The flag `reg_unresolved` (spec/40_decode_pipeline.md R103). The block has no other flag
(spec/10_state.md R20). -/

namespace Sys2Proof.Machine

/-- The register fields each renderer prints (R77, R103). -/
def printedRegs (r : Renderer) (w : Word) : List RegIndex :=
  match r with
  | .registerDefault => [rdOf w, rsOf w, rtOf w]
  | .registerShift => [rtOf w, rdOf w]
  | .registerJump => [rsOf w]
  | .jumpTarget => []
  | .immediateMemory => [rtOf w, rsOf w]
  | .immediateArithmetic => [rtOf w, rsOf w]
  | .immediateBranch => [rsOf w, rtOf w]
  | .immediateBranchSingle => [rsOf w]

/-- `REGN[r] = none`. -/
def unnamed (t : RegNames) (r : RegIndex) : Bool := (regName t r).isNone

/-- `unresolved(r)` (R103, D7): some register field that the renderer prints has no name. -/
def unresolved (t : RegNames) (r : Renderer) (w : Word) : Bool :=
  (printedRegs r w).any (unnamed t)

end Sys2Proof.Machine
end

