-- ==== Sys2Proof/Machine/Formatter.lean ====
section
/-! DEFINITION. The mnemonic formatter: the eight renderers (spec/30_encoding.md R77 to R86) and
`render` (spec/40_decode_pipeline.md R104). -/

namespace Sys2Proof.Machine

/-- The literal line of an invalid opcode or function code (R92, R95). -/
def invalidText : Text := "Invalid opcode".toList

/-- register-default (R78): `<mnem> <rd>, <rs>, <rt>`. -/
def renderRegisterDefault (t : RegNames) (m : Mnemonic) (w : Word) : Text :=
  mnemonicText m ++ " ".toList ++ regText t (rdOf w) ++ ", ".toList ++ regText t (rsOf w) ++
    ", ".toList ++ regText t (rtOf w)

/-- register-shift (R79, N14): `<mnem> <rt>, <rd>, <shamt>`. -/
def renderRegisterShift (t : RegNames) (m : Mnemonic) (w : Word) : Text :=
  mnemonicText m ++ " ".toList ++ regText t (rtOf w) ++ ", ".toList ++ regText t (rdOf w) ++
    ", ".toList ++ shamtText (shamtOf w)

/-- register-jump (R80): `jr <rs>`, with the mnemonic literal. -/
def renderRegisterJump (t : RegNames) (w : Word) : Text :=
  "jr ".toList ++ regText t (rsOf w)

/-- jump-target (R81): `j <address>`, with the mnemonic literal. -/
def renderJumpTarget (w : Word) : Text :=
  "j ".toList ++ addressText (addressOf w)

/-- immediate-memory (R82): `<mnem>, <rt>, <imm>(<rs>)`. -/
def renderImmediateMemory (t : RegNames) (m : Mnemonic) (w : Word) : Text :=
  mnemonicText m ++ ", ".toList ++ regText t (rtOf w) ++ ", ".toList ++ immText (immOf w) ++
    "(".toList ++ regText t (rsOf w) ++ ")".toList

/-- immediate-arithmetic (R83): `<mnem>, <rt>, <rs>, <imm>`. -/
def renderImmediateArithmetic (t : RegNames) (m : Mnemonic) (w : Word) : Text :=
  mnemonicText m ++ ", ".toList ++ regText t (rtOf w) ++ ", ".toList ++ regText t (rsOf w) ++
    ", ".toList ++ immText (immOf w)

/-- immediate-branch (R84): `<mnem>, <rs>, <rt>, <imm>`. -/
def renderImmediateBranch (t : RegNames) (m : Mnemonic) (w : Word) : Text :=
  mnemonicText m ++ ", ".toList ++ regText t (rsOf w) ++ ", ".toList ++ regText t (rtOf w) ++
    ", ".toList ++ immText (immOf w)

/-- immediate-branch-single (R85): `<mnem> <rs>, <imm>`. -/
def renderImmediateBranchSingle (t : RegNames) (m : Mnemonic) (w : Word) : Text :=
  mnemonicText m ++ " ".toList ++ regText t (rsOf w) ++ ", ".toList ++ immText (immOf w)

/-- `render(r, m)` (R104) on the fields of the word. -/
def render (t : RegNames) (r : Renderer) (m : Mnemonic) (w : Word) : Text :=
  match r with
  | .registerDefault => renderRegisterDefault t m w
  | .registerShift => renderRegisterShift t m w
  | .registerJump => renderRegisterJump t w
  | .jumpTarget => renderJumpTarget w
  | .immediateMemory => renderImmediateMemory t m w
  | .immediateArithmetic => renderImmediateArithmetic t m w
  | .immediateBranch => renderImmediateBranch t m w
  | .immediateBranchSingle => renderImmediateBranchSingle t m w

end Sys2Proof.Machine
end

