-- ==== Sys2Proof/Config.lean ====
section
/-! DEFINITION. The parameters that spec/00_scope.md R7 leaves OPEN. Each is an argument the model
takes (R7), never a value it fixes. The third parameter, REG_NAMES, is a table that State holds. -/

namespace Sys2Proof

/-- WORD_BYTE_ORDER (R7, R43, D17): the byte order a host uses when it packs a word into bytes. -/
inductive ByteOrder where
  | big
  | little
  deriving DecidableEq, Repr

/-- OUTPUT_FRAMING (R7, R52, D12, C3): whether the output file ends every line with a terminator, or
only separates the lines. -/
inductive OutputFraming where
  | terminated
  | joined
  deriving DecidableEq, Repr

end Sys2Proof
end

