-- ==== Sys2Proof/Machine/State.lean ====
section
/-! DEFINITION. The state: the three tables (spec/10_state.md R28), the ports (R25), and the host
boundary (spec/20_memory.md R45 to R53). Plain data only. -/

namespace Sys2Proof.Machine

/-- The output ports of R25. Enumerations stand for their codes (D4); `none` is the spec's NONE.
DESIGN CHOICE (log entry 10): safe. -/
structure Ports where
  /-- `instr[31:26]` -/
  opcode : Opcode
  /-- `instr[25:21]` -/
  rs : RegIndex
  /-- `instr[20:16]` -/
  rt : RegIndex
  /-- `instr[15:11]` -/
  rd : RegIndex
  /-- `instr[10:6]` -/
  shamt : Shamt
  /-- `instr[5:0]` -/
  funct : Funct
  /-- `instr[15:0]` -/
  imm16 : Imm16
  /-- `imm_sext`, `sext_32(instr[15:0])` (R99) -/
  immSext : BitVec 32
  /-- `instr[25:0]` -/
  addr26 : Addr26
  /-- the format (R93) -/
  fmt : Format
  /-- the outcome (R211) -/
  status : Status
  /-- the mnemonic (R87) -/
  mnem : Option Mnemonic
  /-- the renderer (R77) -/
  rend : Option Renderer
  /-- `reg_unresolved` (R103) -/
  regUnresolved : Bool
  /-- the output line (R104) -/
  text : Text
  deriving DecidableEq, Repr

/-- The outcomes of R210 that leave a machine to go on. The host's `Fault(NON_BINARY, k)` is a `Fault`,
and an unresolved register is a flag beside `ok` (R214). -/
inductive DecodeOutcome where
  | ok
  | invalidOpcode
  | invalidFunct
  | lineSkipped
  | fileUnreadable
  deriving DecidableEq, Repr

/-- A word the host drives directly (R242): 32 bits, or four bytes of byte storage in the order of their
addresses with the host's WORD_BYTE_ORDER (R43). -/
inductive HostWord where
  | driven (w : Word)
  | packed (order : ByteOrder) (b0 b1 b2 b3 : Byte)
  deriving DecidableEq, Repr

/-- An input file: one that cannot be opened (R51), or its text (R45). -/
inductive InputFile where
  | unreadable
  | contents (text : Text)
  deriving DecidableEq, Repr

/-- The result of a finished file: its output lines (R48), or the out-of-band notice (R51). -/
inductive FileResult where
  | lines (ls : List Text)
  | unreadable
  deriving DecidableEq, Repr

/-- The state of the block and of the host boundary. DESIGN CHOICE: the ports stand in State as Options
(log entry 2), and the host's bookkeeping is the model's own (log entry 6); both safe. One instance of the
block (log entry 9). -/
structure State where
  /-- `OPC` (R22) -/
  opc : OpcTable
  /-- `FUN` (R23) -/
  fn : FunTable
  /-- `REGN` (R24), the parameter REG_NAMES -/
  regn : RegNames
  /-- the input port (R25); `none` while the host does not drive it (R241) -/
  instr : Option Word
  /-- the output ports (R25); `none` while they are not yet produced (R241) -/
  ports : Option Ports
  /-- words waiting to be driven directly, next first (R242) -/
  words : List HostWord
  /-- input files waiting to be read, next first (R45, R51) -/
  files : List InputFile
  /-- the raw lines left of the open file (R45); `none` while no file is open -/
  lines : Option (List Text)
  /-- how many lines of the open file were kept so far (R49) -/
  kept : Nat
  /-- the output lines of the open file so far, in input order (R48) -/
  outLines : List Text
  /-- the results of the finished files, first file first (R48, R51) -/
  results : List FileResult
  /-- the outcome of the last item (R210) -/
  lastOutcome : Option DecodeOutcome
  deriving DecidableEq, Repr

/-- What stops the machine with a fault. -/
inductive Fault where
  /-- `Fault(NON_BINARY, k)` (R47, R49, R215): kept line `k` of the open file has a defined opcode string
  and a character other than `0` and `1` after it. Raised by the host's line rule alone. DEDUCED (log entry 4). Safe: the model
  stops where the document says "fatal decode error" (D10). -/
  | nonBinary (k : Nat)
  deriving DecidableEq, Repr

/-- What the model gives no step. -/
inductive Refusal where
  /-- An instruction without a meaning, rejected by name in `exec`. No arm uses it. Safe. -/
  | notModelled (mnemonic : String)
  /-- Nothing is driven and the host has nothing to present, so there is no output to produce (R241,
  U12, D15). Raised by `step` alone. DESIGN CHOICE (log entry 3). Safe: the model refuses. -/
  | inputNotDriven
  deriving DecidableEq, Repr

/-- The machine before its first decode: the tables hold their contents (R28, R240, R242), and nothing
is driven, so nothing is produced (R241). The host has presented nothing yet: DESIGN CHOICE (log entry 3),
unsafe. -/
def State.reset : State where
  opc := opcRom
  fn := funRom
  regn := defaultRegNames
  instr := none
  ports := none
  words := []
  files := []
  lines := none
  kept := 0
  outLines := []
  results := []
  lastOutcome := none

end Sys2Proof.Machine
end

