-- ==== Sys2Proof/Machine/Pipeline.lean ====
section
/-! DEFINITION. The value of every output port: the ports of an `OK` word and of an invalid one, and the
decode function of spec/40_decode_pipeline.md R90 as the spec writes it. -/

namespace Sys2Proof.Machine

/-- The ports of an `OK` word with format `f`, mnemonic `m` and renderer `r` (R90): the raw slices
(R26), `render` (R104) and `unresolved` (R103). -/
def okPorts (t : RegNames) (w : Word) (f : Format) (m : Mnemonic) (r : Renderer) : Ports where
  opcode := opcodeOf w
  rs := rsOf w
  rt := rtOf w
  rd := rdOf w
  shamt := shamtOf w
  funct := functOf w
  imm16 := immOf w
  immSext := sextImm (immOf w)
  addr26 := addressOf w
  fmt := f
  status := .ok
  mnem := some m
  rend := some r
  regUnresolved := unresolved t r w
  text := render t r m w

/-- The ports of an invalid word (R92, R95): the raw slices, no mnemonic, no renderer, the literal line. -/
def invalidPorts (w : Word) (f : Format) (st : Status) : Ports where
  opcode := opcodeOf w
  rs := rsOf w
  rt := rtOf w
  rd := rdOf w
  shamt := shamtOf w
  funct := functOf w
  imm16 := immOf w
  immSext := sextImm (immOf w)
  addr26 := addressOf w
  fmt := f
  status := st
  mnem := none
  rend := none
  regUnresolved := false
  text := invalidText

/-- `decode(instr)` (R90): every output port as a function of the word and the tables. It is the clear
form that the step is compared with; the step itself goes through the decoder and the meanings. -/
def decodePorts (opc : OpcTable) (fn : FunTable) (t : RegNames) (w : Word) : Ports :=
  match opcEntry opc (opcodeOf w) with
  | none => invalidPorts w .none .invalidOpcode
  | some .register =>
    match funEntry fn (functOf w) with
    | none => invalidPorts w .register .invalidFunct
    | some e => okPorts t w .register e.mnem e.rend
  | some (.immediate m r) => okPorts t w .immediate m r
  | some (.jump m r) => okPorts t w .jump m r

end Sys2Proof.Machine
end

