-- ==== Sys2Proof/WellFormed.lean ====
section
/-! DEFINITION. The checks the spec gives. An instruction has none: the types of its fields say all
there is to say, and no field value is checked (spec/30_encoding.md R70). What is checked is the
register name table (spec/10_state.md R24) and a line of the host (spec/20_memory.md R46, R47). -/

namespace Sys2Proof

/-- The 17 register names of R24. -/
def registerNameSet : List Text :=
  ["$zero".toList,
   "$t0".toList, "$t1".toList, "$t2".toList, "$t3".toList,
   "$t4".toList, "$t5".toList, "$t6".toList, "$t7".toList,
   "$s0".toList, "$s1".toList, "$s2".toList, "$s3".toList,
   "$s4".toList, "$s5".toList, "$s6".toList, "$s7".toList]

/-- The three entries that the source pins (R74, D8): `01000`, `01001` and `01010`. -/
def RegNames.pinned (t : RegNames) : Bool :=
  t[8] == some "$t0".toList && t[9] == some "$t1".toList && t[10] == some "$t2".toList

/-- Exactly 17 entries are names, and they are the 17 names of R24, each once. -/
def RegNames.namesAll (t : RegNames) : Bool :=
  (t.toList.filterMap id).isPerm registerNameSet

/-- A table the parameter REG_NAMES may be (R24, R74, D8). -/
def RegNames.wf (t : RegNames) : Bool :=
  t.pinned && t.namesAll

/-- A character of an instruction word (R12): `0` or `1`. -/
def isBinary (c : Char) : Bool :=
  c == '0' || c == '1'

/-- A trimmed line that the length filter keeps (R46). -/
def lineKept (l : Text) : Bool :=
  l.length == 32

/-- An instruction word as text (R12): 32 characters, each `0` or `1`. -/
def lineIsWord (l : Text) : Bool :=
  lineKept l && l.all isBinary

end Sys2Proof
end

