-- ==== Sys2Proof/Machine/HostLine.lean ====
section
/-! DEFINITION. The host boundary as functions (spec/20_memory.md R42 to R52): splitting and trimming,
the bits of a line, what becomes of a raw line, the rule of R47 as the spec writes it, packed words, and output framing. -/

namespace Sys2Proof.Machine

/-! ## Lines and whitespace (R45, D11) -/

/-- LF, where lines split and which terminates an output line (D11; for output DEDUCED, log entry 8). -/
def lineFeed : Char := Char.ofNat 0x0A

/-- The whitespace set of D11: space, TAB, LF, VT, FF, CR. -/
def isWhitespace (c : Char) : Bool :=
  c.toNat == 0x20 || c.toNat == 0x09 || c.toNat == 0x0A || c.toNat == 0x0B || c.toNat == 0x0C ||
    c.toNat == 0x0D

/-- The lines of a text, split at LF (D11). DEDUCED (log entry 12): a final LF leaves an empty last line,
which the length filter drops; safe. -/
def splitLines : Text → List Text
  | [] => [[]]
  | c :: cs =>
    if c == lineFeed then [] :: splitLines cs
    else
      match splitLines cs with
      | [] => [[c]]
      | l :: ls => (c :: l) :: ls

/-- Leading and trailing whitespace removed (R45). -/
def trim (l : Text) : Text :=
  ((l.dropWhile isWhitespace).reverse.dropWhile isWhitespace).reverse

/-! ## Bits of a line (R42) -/

/-- `uint(bits(s))` (R10): the value of a string of `0` and `1`, most significant first. -/
def bitsValue (s : Text) : Nat :=
  s.foldl (fun n c => 2 * n + (if c == '1' then 1 else 0)) 0

/-- The word of a line of 32 bits (R42): the first character is `instr[31]`. -/
def wordOfLine (l : Text) : Word := BitVec.ofNat 32 (bitsValue l)

/-- `L[0:6]` is the string of a defined opcode (R47): all binary, and its entry in `OPC` is defined. -/
def opcodeStringDefined (opc : OpcTable) (s : Text) : Bool :=
  s.all isBinary && (opcEntry opc (BitVec.ofNat 6 (bitsValue s))).isSome

/-! ## What becomes of a raw line (R45 to R47, R218) -/

/-- What the host does with a raw line. -/
inductive LineClass where
  /-- the trimmed length is not 32 (R46) -/
  | skipped
  /-- the opcode string is no key of `OPC` and the line is no word (R47, first branch; U6) -/
  | invalidOpcode
  /-- a defined opcode string and a non-binary character after it (R47, second branch) -/
  | nonBinary
  /-- the line is a word, which the host presents to the block (R42, R46) -/
  | word (w : Word)
  deriving DecidableEq, Repr

/-- The class of a raw line. A line of 32 binary characters is a word, whether or not its opcode is
defined: the block gives the word with an undefined opcode the line R47's first branch gives it (R92).
DEDUCED (log entry 13): unsafe only for the field ports after such a line. -/
def classifyLine (opc : OpcTable) (raw : Text) : LineClass :=
  if lineKept (trim raw) then
    if (trim raw).all isBinary then .word (wordOfLine (trim raw))
    else if opcodeStringDefined opc ((trim raw).take 6) then .nonBinary
    else .invalidOpcode
  else .skipped

/-! ## R47 as the spec writes it -/

/-- The result of a raw line: nothing, an output line, or the fault. -/
inductive LineResult where
  | skipped
  | text (t : Text)
  | nonBinary
  deriving DecidableEq, Repr

/-- R45 to R47, branch by branch in the order of the spec's pseudocode. -/
def lineResult (opc : OpcTable) (fn : FunTable) (t : RegNames) (raw : Text) : LineResult :=
  if (trim raw).length ≠ 32 then .skipped
  else if opcodeStringDefined opc ((trim raw).take 6) = false then .text invalidText
  else if ((trim raw).drop 6).any (fun c => !isBinary c) then .nonBinary
  else .text (decodePorts opc fn t (wordOfLine (trim raw))).text

/-! ## Packed words (R43) -/

/-- The word of four bytes in the order of their addresses (R43, D17). PRESUMED (log entry 7) that `big`
puts the most significant byte at the lowest address; unsafe for a claim about a named order. -/
def wordOfBytes (order : ByteOrder) (b0 b1 b2 b3 : Byte) : Word :=
  match order with
  | .big => b0 ++ b1 ++ b2 ++ b3
  | .little => b3 ++ b2 ++ b1 ++ b0

/-- The 32 bits of a word the host drives directly. -/
def hostWordBits : HostWord → Word
  | .driven w => w
  | .packed order b0 b1 b2 b3 => wordOfBytes order b0 b1 b2 b3

/-! ## Output framing (R52, D12) -/

/-- The text of an output file, with OUTPUT_FRAMING as an argument (R52, C3). -/
def frameLines (f : OutputFraming) : List Text → Text
  | [] => []
  | [l] =>
    match f with
    | .terminated => l ++ [lineFeed]
    | .joined => l
  | l :: m :: ls => l ++ [lineFeed] ++ frameLines f (m :: ls)

/-- The output sequence of a file's result: empty for an unreadable file (R51). -/
def resultLines : FileResult → List Text
  | .lines ls => ls
  | .unreadable => []

/-- Whether the host gets the out-of-band notice (R51). -/
def resultNotice : FileResult → Bool
  | .lines _ => false
  | .unreadable => true

end Sys2Proof.Machine
end

