-- ==== Sys2Proof/Machine/Ops.lean ====
section
/-! DEFINITION. The named operations on the state: driving a word onto the port, and what the host does
with lines and files. There is no trap to take and none to return from (spec/60_exceptions.md R219,
R220), so there is no operation for either. -/

namespace Sys2Proof.Machine

/-- The host drives `w` and the block produces the ports of an `OK` word (R90, R241). The one effect of
every instruction. -/
def State.drive (s : State) (w : Word) (f : Format) (m : Mnemonic) (r : Renderer) : State :=
  { s with
    instr := some w
    ports := some (okPorts s.regn w f m r)
    lastOutcome := some .ok }

/-- The host drives a word with an undefined opcode (R92, R212). -/
def State.driveInvalidOpcode (s : State) (w : Word) : State :=
  { s with
    instr := some w
    ports := some (invalidPorts w .none .invalidOpcode)
    lastOutcome := some .invalidOpcode }

/-- The host drives a word with opcode `000000` and an undefined function code (R95, R213). -/
def State.driveInvalidFunct (s : State) (w : Word) : State :=
  { s with
    instr := some w
    ports := some (invalidPorts w .register .invalidFunct)
    lastOutcome := some .invalidFunct }

/-- An item that puts no word on the port: the port is not driven and the outputs are not produced
(R241). DESIGN CHOICE (log entry 2): safe. -/
def State.undrive (s : State) (o : Option DecodeOutcome) : State :=
  { s with
    instr := none
    ports := none
    lastOutcome := o }

/-- One more kept line of the open file, with output line `t` (R48, R49). -/
def State.collect (s : State) (t : Text) : State :=
  { s with
    kept := s.kept + 1
    outLines := s.outLines ++ [t] }

/-- The host takes the line of the word it has just presented (R47, third branch). -/
def State.collectText (s : State) : State :=
  match s.ports with
  | some p => s.collect p.text
  | none => s

/-- A skipped line (R46, R216): no output line, nothing kept. -/
def State.skipLine (s : State) : State := s.undrive (some .lineSkipped)

/-- A kept line whose opcode string is no key and which is no word (R47, first branch; U6). -/
def State.invalidLine (s : State) : State :=
  (s.undrive (some .invalidOpcode)).collect invalidText

/-- The host opens the next input file (R45), or gives an empty result and the notice (R51, R217). -/
def State.openFile (s : State) (f : InputFile) : State :=
  match f with
  | .unreadable =>
    { s.undrive (some .fileUnreadable) with results := s.results ++ [.unreadable] }
  | .contents text =>
    { s.undrive none with lines := some (splitLines text), kept := 0, outLines := [] }

/-- The open file has no line left: its result is its output lines, in input order (R48, R50). -/
def State.closeFile (s : State) : State :=
  { s.undrive none with
    lines := none
    kept := 0
    outLines := []
    results := s.results ++ [.lines s.outLines] }

end Sys2Proof.Machine
end

