-- ==== Sys2Proof/Machine/ImmediateArithmetic.lean ====
section
/-! DEFINITION. The immediate-format arithmetic instructions (spec/43_immediate_arithmetic.md R160 to R165). What an instruction does is
what the block drives: every output port. The outcome is always `OK`. -/

namespace Sys2Proof.Machine

/-- `addi` (R161): prints rt, rs, imm, the immediate signed. -/
def execAddi (rs rt : RegIndex) (imm : Imm16) (s : State) :
    Host.Outcome State Fault Refusal :=
  .next (s.drive (encode (.addi rs rt imm)) .immediate .addi .immediateArithmetic)

/-- `andi` (R162): prints rt, rs, imm, the immediate signed. -/
def execAndi (rs rt : RegIndex) (imm : Imm16) (s : State) :
    Host.Outcome State Fault Refusal :=
  .next (s.drive (encode (.andi rs rt imm)) .immediate .andi .immediateArithmetic)

/-- `ori` (R163): prints rt, rs, imm, the immediate signed. -/
def execOri (rs rt : RegIndex) (imm : Imm16) (s : State) :
    Host.Outcome State Fault Refusal :=
  .next (s.drive (encode (.ori rs rt imm)) .immediate .ori .immediateArithmetic)

/-- `xori` (R164): prints rt, rs, imm, the immediate signed. -/
def execXori (rs rt : RegIndex) (imm : Imm16) (s : State) :
    Host.Outcome State Fault Refusal :=
  .next (s.drive (encode (.xori rs rt imm)) .immediate .xori .immediateArithmetic)

/-- `liu` (R165): prints rt, rs, imm, with rs whatever it holds. -/
def execLiu (rs rt : RegIndex) (imm : Imm16) (s : State) :
    Host.Outcome State Fault Refusal :=
  .next (s.drive (encode (.liu rs rt imm)) .immediate .liu .immediateArithmetic)

end Sys2Proof.Machine
end

