-- ==== Sys2Proof/Machine/ImmediateBranch.lean ====
section
/-! DEFINITION. The immediate-format branch instructions (spec/44_immediate_branch.md R180 to R184). What an instruction does is
what the block drives: every output port. The outcome is always `OK`. -/

namespace Sys2Proof.Machine

/-- `beq` (R181): prints rs, rt, imm. -/
def execBeq (rs rt : RegIndex) (imm : Imm16) (s : State) :
    Host.Outcome State Fault Refusal :=
  .next (s.drive (encode (.beq rs rt imm)) .immediate .beq .immediateBranch)

/-- `bne` (R182): prints rs, rt, imm. -/
def execBne (rs rt : RegIndex) (imm : Imm16) (s : State) :
    Host.Outcome State Fault Refusal :=
  .next (s.drive (encode (.bne rs rt imm)) .immediate .bne .immediateBranch)

/-- `blez` (R183): prints rs, imm; rt is not read. -/
def execBlez (rs rt : RegIndex) (imm : Imm16) (s : State) :
    Host.Outcome State Fault Refusal :=
  .next (s.drive (encode (.blez rs rt imm)) .immediate .blez .immediateBranchSingle)

/-- `bgtz` (R184): prints rs, imm; rt is not read. -/
def execBgtz (rs rt : RegIndex) (imm : Imm16) (s : State) :
    Host.Outcome State Fault Refusal :=
  .next (s.drive (encode (.bgtz rs rt imm)) .immediate .bgtz .immediateBranchSingle)

end Sys2Proof.Machine
end

