-- ==== Sys2Proof/Machine/ImmediateMemory.lean ====
section
/-! DEFINITION. The immediate-format memory instructions (spec/42_immediate_memory.md R140 to R146). What an instruction does is
what the block drives: every output port. The outcome is always `OK`. -/

namespace Sys2Proof.Machine

/-- `lb` (R141): prints rt, imm(rs). -/
def execLb (rs rt : RegIndex) (imm : Imm16) (s : State) :
    Host.Outcome State Fault Refusal :=
  .next (s.drive (encode (.lb rs rt imm)) .immediate .lb .immediateMemory)

/-- `lh` (R142): prints rt, imm(rs). -/
def execLh (rs rt : RegIndex) (imm : Imm16) (s : State) :
    Host.Outcome State Fault Refusal :=
  .next (s.drive (encode (.lh rs rt imm)) .immediate .lh .immediateMemory)

/-- `lw` (R143): prints rt, imm(rs). -/
def execLw (rs rt : RegIndex) (imm : Imm16) (s : State) :
    Host.Outcome State Fault Refusal :=
  .next (s.drive (encode (.lw rs rt imm)) .immediate .lw .immediateMemory)

/-- `sb` (R144): prints rt, imm(rs). -/
def execSb (rs rt : RegIndex) (imm : Imm16) (s : State) :
    Host.Outcome State Fault Refusal :=
  .next (s.drive (encode (.sb rs rt imm)) .immediate .sb .immediateMemory)

/-- `sh` (R145): prints rt, imm(rs). -/
def execSh (rs rt : RegIndex) (imm : Imm16) (s : State) :
    Host.Outcome State Fault Refusal :=
  .next (s.drive (encode (.sh rs rt imm)) .immediate .sh .immediateMemory)

/-- `sw` (R146): prints rt, imm(rs). -/
def execSw (rs rt : RegIndex) (imm : Imm16) (s : State) :
    Host.Outcome State Fault Refusal :=
  .next (s.drive (encode (.sw rs rt imm)) .immediate .sw .immediateMemory)

end Sys2Proof.Machine
end

