-- ==== Sys2Proof/Machine/Jump.lean ====
section
/-! DEFINITION. The jump-format instruction (spec/45_jump.md R200). What an instruction does is
what the block drives: every output port. The outcome is always `OK`. -/

namespace Sys2Proof.Machine

/-- `j` (R200): prints the address, unsigned. -/
def execJ (address : Addr26) (s : State) :
    Host.Outcome State Fault Refusal :=
  .next (s.drive (encode (.j address)) .jump .j .jumpTarget)

end Sys2Proof.Machine
end

