-- ==== Sys2Proof/Machine/RegisterFormat.lean ====
section
/-! DEFINITION. The register-format instructions (spec/41_register_format.md R120 to R128). What an instruction does is
what the block drives: every output port. The outcome is always `OK`. -/

namespace Sys2Proof.Machine

/-- `add` (R121): prints rd, rs, rt; shamt is not read. -/
def execAdd (rs rt rd : RegIndex) (shamt : Shamt) (s : State) :
    Host.Outcome State Fault Refusal :=
  .next (s.drive (encode (.add rs rt rd shamt)) .register .add .registerDefault)

/-- `sub` (R122): prints rd, rs, rt; shamt is not read. -/
def execSub (rs rt rd : RegIndex) (shamt : Shamt) (s : State) :
    Host.Outcome State Fault Refusal :=
  .next (s.drive (encode (.sub rs rt rd shamt)) .register .sub .registerDefault)

/-- `and` (R123): prints rd, rs, rt; shamt is not read. -/
def execAnd (rs rt rd : RegIndex) (shamt : Shamt) (s : State) :
    Host.Outcome State Fault Refusal :=
  .next (s.drive (encode (.and rs rt rd shamt)) .register .and .registerDefault)

/-- `or` (R124): prints rd, rs, rt; shamt is not read. -/
def execOr (rs rt rd : RegIndex) (shamt : Shamt) (s : State) :
    Host.Outcome State Fault Refusal :=
  .next (s.drive (encode (.or rs rt rd shamt)) .register .or .registerDefault)

/-- `xor` (R125): prints rd, rs, rt; shamt is not read. -/
def execXor (rs rt rd : RegIndex) (shamt : Shamt) (s : State) :
    Host.Outcome State Fault Refusal :=
  .next (s.drive (encode (.xor rs rt rd shamt)) .register .xor .registerDefault)

/-- `sll` (R126): prints rt, rd, shamt; rs is not read. -/
def execSll (rs rt rd : RegIndex) (shamt : Shamt) (s : State) :
    Host.Outcome State Fault Refusal :=
  .next (s.drive (encode (.sll rs rt rd shamt)) .register .sll .registerShift)

/-- `srl` (R127): prints rt, rd, shamt; rs is not read. -/
def execSrl (rs rt rd : RegIndex) (shamt : Shamt) (s : State) :
    Host.Outcome State Fault Refusal :=
  .next (s.drive (encode (.srl rs rt rd shamt)) .register .srl .registerShift)

/-- `jr` (R128): prints rs; rt, rd and shamt are not read. -/
def execJr (rs rt rd : RegIndex) (shamt : Shamt) (s : State) :
    Host.Outcome State Fault Refusal :=
  .next (s.drive (encode (.jr rs rt rd shamt)) .register .jr .registerJump)

end Sys2Proof.Machine
end

