-- ==== Sys2Proof/Machine/Run.lean ====
section
/-! DEFINITION. What one step does: one word driven directly, one raw line of the open file, or the
opening or closing of a file (spec/20_memory.md R45 to R53). The order of these items is the model's own:
DESIGN CHOICE (log entry 5), unsafe only for a claim about which item is next; no decode depends on
another (R53). -/

namespace Sys2Proof.Machine

/-- A word on the port: the dispatch of R91 to R97, then the instruction's own meaning, or one of the
two invalid outcomes. -/
def runWord (w : Word) (s : State) : Host.Outcome State Fault Refusal :=
  match decodeWith s.opc s.fn w with
  | .instr i => exec i s
  | .invalidOpcode => .next (s.driveInvalidOpcode w)
  | .invalidFunct => .next (s.driveInvalidFunct w)

/-- The host collects the line of a decode that went on. -/
def collectNext : Host.Outcome State Fault Refusal → Host.Outcome State Fault Refusal
  | .next t => .next t.collectText
  | .fault r => .fault r
  | .refused r => .refused r

/-- A raw line of the open file (R45 to R49). -/
def runLine (raw : Text) (s : State) : Host.Outcome State Fault Refusal :=
  match classifyLine s.opc raw with
  | .skipped => .next s.skipLine
  | .invalidOpcode => .next s.invalidLine
  | .nonBinary => .fault (.nonBinary s.kept)
  | .word w => collectNext (runWord w s)

/-- The file side of the host: the next line of the open file, its end, or the next file. -/
def runFile (s : State) : Host.Outcome State Fault Refusal :=
  match s.lines with
  | some (l :: ls) => runLine l { s with lines := some ls }
  | some [] => .next s.closeFile
  | none =>
    match s.files with
    | f :: fs => .next (State.openFile { s with files := fs } f)
    | [] => .refused .inputNotDriven

/-- The next item: a word driven directly comes before the files. -/
def runItem (s : State) : Host.Outcome State Fault Refusal :=
  match s.words with
  | h :: ws => runWord (hostWordBits h) { s with words := ws }
  | [] => runFile s

end Sys2Proof.Machine
end

