-- ==== Sys2Proof/Machine/Step.lean ====
section
/-! DEFINITION. One step of the machine, and the placing of an instruction for the next step. -/

namespace Sys2Proof.Machine

/-- One step: the next item that the host deals with. -/
def step (s : State) : Host.Outcome State Fault Refusal := runItem s

/-- `s` with the word of `nbits` bits of value `w` (every bit above them 0) as the next word driven.
It stands for the host's load: DESIGN CHOICE (log entry 14), safe. -/
def State.withFetchWord (s : State) (nbits w : Nat) : State :=
  { s with words := .driven (BitVec.ofNat 32 (w % 2 ^ nbits)) :: s.words }

end Sys2Proof.Machine
end

