-- ==== Sys2Proof/Safety.lean ====
section
/-! DEFINITION. The terms claims use: what a state of the machine always satisfies. -/

namespace Sys2Proof.Machine

/-- `OPC` and `FUN` hold the contents of R66 to R69 (R28, R242). -/
structure State.RomOk (s : State) : Prop where
  opc : s.opc = opcRom
  fn : s.fn = funRom

/-- The ports agree with the input: undriven and not produced, or driven with every output at
`decode(instr)` (R27, R90, R241). -/
def State.PortsFollowInput (s : State) : Prop :=
  match s.instr, s.ports with
  | none, none => True
  | some w, some p => p = decodePorts s.opc s.fn s.regn w
  | none, some _ => False
  | some _, none => False

/-- With no file open, the host holds no kept line and no output line of one. -/
def State.IdleBetweenFiles (s : State) : Prop :=
  s.lines = none → s.kept = 0 ∧ s.outLines = []

/-- What every step keeps. -/
structure State.Inv (s : State) : Prop where
  /-- the tables hold their contents (R28, R240) -/
  rom : s.RomOk
  /-- the register names are a table REG_NAMES may be (R24, R74) -/
  names : s.regn.wf = true
  /-- the outputs are `decode` of the input (R27, R241) -/
  follow : s.PortsFollowInput
  /-- one output line for each kept line (R48) -/
  count : s.outLines.length = s.kept
  /-- nothing is held between files -/
  idle : s.IdleBetweenFiles

end Sys2Proof.Machine
end

