-- ==== Sys2Proof/Certificates/Slice0/Obligations.lean ====
section
/-! DEFINITION. The statements for the provers, each a `def Obligations.<Name> : Prop`, and the terms
they are written in (`Sys2Proof.Claims`). They come from the numbered rules of spec/. -/

namespace Sys2Proof.Claims

open Sys2Proof.Machine

/-- The state after an `OK` word `w` with ports `p`: the port fields and the outcome change, and nothing
else. -/
def driven (s : State) (w : Word) (p : Ports) : State :=
  { s with instr := some w, ports := some p, lastOutcome := some .ok }

/-- Every port of a register-format word with status OK (R25, R26, R62). -/
def registerPorts (rs rt rd : RegIndex) (shamt : Shamt) (fn : Funct) (m : Mnemonic) (r : Renderer)
    (unresolved : Bool) (text : Text) : Ports where
  opcode := 0b000000#6
  rs := rs
  rt := rt
  rd := rd
  shamt := shamt
  funct := fn
  imm16 := rd ++ shamt ++ fn
  immSext := (rd ++ shamt ++ fn).signExtend 32
  addr26 := rs ++ rt ++ rd ++ shamt ++ fn
  fmt := .register
  status := .ok
  mnem := some m
  rend := some r
  regUnresolved := unresolved
  text := text

/-- Every port of an immediate-format word with status OK (R25, R26, R63). -/
def immediatePorts (op : Opcode) (rs rt : RegIndex) (imm : Imm16) (m : Mnemonic) (r : Renderer)
    (unresolved : Bool) (text : Text) : Ports where
  opcode := op
  rs := rs
  rt := rt
  rd := imm.extractLsb' 11 5
  shamt := imm.extractLsb' 6 5
  funct := imm.extractLsb' 0 6
  imm16 := imm
  immSext := imm.signExtend 32
  addr26 := rs ++ rt ++ imm
  fmt := .immediate
  status := .ok
  mnem := some m
  rend := some r
  regUnresolved := unresolved
  text := text

/-- Every port of a jump-format word with status OK (R25, R26, R64). -/
def jumpPorts (op : Opcode) (address : Addr26) (m : Mnemonic) (r : Renderer) (unresolved : Bool)
    (text : Text) : Ports where
  opcode := op
  rs := address.extractLsb' 21 5
  rt := address.extractLsb' 16 5
  rd := address.extractLsb' 11 5
  shamt := address.extractLsb' 6 5
  funct := address.extractLsb' 0 6
  imm16 := address.extractLsb' 0 16
  immSext := (address.extractLsb' 0 16).signExtend 32
  addr26 := address
  fmt := .jump
  status := .ok
  mnem := some m
  rend := some r
  regUnresolved := unresolved
  text := text

/-- From every state with the tables of the spec and the default REG_NAMES (the premise D8 asks for),
the word `w`, next to be driven, gives an `OK` decode with this text and this `reg_unresolved`. -/
def Prints (w : Word) (text : Text) (unresolved : Bool) : Prop :=
  ∀ (s : State) (ws : List HostWord), s.RomOk → s.regn = defaultRegNames →
    s.words = .driven w :: ws →
    ∃ t p, step s = .next t ∧ t.ports = some p ∧ p.status = .ok ∧ p.text = text ∧
      p.regUnresolved = unresolved

/-- The step from `s` goes on to a state whose ports satisfy `P`. -/
def StepPorts (s : State) (P : Ports → Prop) : Prop :=
  ∃ t p, step s = .next t ∧ t.ports = some p ∧ P p

/-- The 17 rows of R66, in the order of the spec. -/
def opcodeRows : List (Opcode × OpcEntry) :=
  [(0b000000#6, .register),
   (0b100000#6, .immediate .lb .immediateMemory), (0b100001#6, .immediate .lh .immediateMemory),
   (0b100011#6, .immediate .lw .immediateMemory), (0b101000#6, .immediate .sb .immediateMemory),
   (0b101001#6, .immediate .sh .immediateMemory), (0b101011#6, .immediate .sw .immediateMemory),
   (0b001000#6, .immediate .addi .immediateArithmetic),
   (0b001100#6, .immediate .andi .immediateArithmetic),
   (0b001101#6, .immediate .ori .immediateArithmetic),
   (0b001110#6, .immediate .xori .immediateArithmetic),
   (0b001111#6, .immediate .liu .immediateArithmetic),
   (0b000100#6, .immediate .beq .immediateBranch), (0b000101#6, .immediate .bne .immediateBranch),
   (0b000110#6, .immediate .blez .immediateBranchSingle),
   (0b000111#6, .immediate .bgtz .immediateBranchSingle),
   (0b000010#6, .jump .j .jumpTarget)]

/-- The mnemonic and the renderer index of an `OPC` row, where R66 gives them. -/
def entryCodes : OpcEntry → Option (Nat × Nat)
  | .register => none
  | .immediate m r => some ((mnemonicIndex m).toNat, (rendererIndex r).toNat)
  | .jump m r => some ((mnemonicIndex m).toNat, (rendererIndex r).toNat)

/-- The eight rows of R67, in the order of the spec. -/
def functRows : List (Funct × FunEntry) :=
  [(0b100000#6, ⟨.add, .registerDefault⟩), (0b100010#6, ⟨.sub, .registerDefault⟩),
   (0b100100#6, ⟨.and, .registerDefault⟩), (0b100101#6, ⟨.or, .registerDefault⟩),
   (0b100110#6, ⟨.xor, .registerDefault⟩), (0b000000#6, ⟨.sll, .registerShift⟩),
   (0b000010#6, ⟨.srl, .registerShift⟩), (0b001000#6, ⟨.jr, .registerJump⟩)]

/-- The 47 undefined opcodes, as R68 lists them. -/
def undefinedOpcodes : List Opcode :=
  [0b000001#6, 0b000011#6, 0b001001#6, 0b001010#6, 0b001011#6, 0b010000#6, 0b010001#6, 0b010010#6,
   0b010011#6, 0b010100#6, 0b010101#6, 0b010110#6, 0b010111#6, 0b011000#6, 0b011001#6, 0b011010#6,
   0b011011#6, 0b011100#6, 0b011101#6, 0b011110#6, 0b011111#6, 0b100010#6, 0b100100#6, 0b100101#6,
   0b100110#6, 0b100111#6, 0b101010#6, 0b101100#6, 0b101101#6, 0b101110#6, 0b101111#6, 0b110000#6,
   0b110001#6, 0b110010#6, 0b110011#6, 0b110100#6, 0b110101#6, 0b110110#6, 0b110111#6, 0b111000#6,
   0b111001#6, 0b111010#6, 0b111011#6, 0b111100#6, 0b111101#6, 0b111110#6, 0b111111#6]

/-- The 56 undefined function codes, as R69 lists them. -/
def undefinedFuncts : List Funct :=
  [0b000001#6, 0b000011#6, 0b000100#6, 0b000101#6, 0b000110#6, 0b000111#6, 0b001001#6, 0b001010#6,
   0b001011#6, 0b001100#6, 0b001101#6, 0b001110#6, 0b001111#6, 0b010000#6, 0b010001#6, 0b010010#6,
   0b010011#6, 0b010100#6, 0b010101#6, 0b010110#6, 0b010111#6, 0b011000#6, 0b011001#6, 0b011010#6,
   0b011011#6, 0b011100#6, 0b011101#6, 0b011110#6, 0b011111#6, 0b100001#6, 0b100011#6, 0b100111#6,
   0b101000#6, 0b101001#6, 0b101010#6, 0b101011#6, 0b101100#6, 0b101101#6, 0b101110#6, 0b101111#6,
   0b110000#6, 0b110001#6, 0b110010#6, 0b110011#6, 0b110100#6, 0b110101#6, 0b110110#6, 0b110111#6,
   0b111000#6, 0b111001#6, 0b111010#6, 0b111011#6, 0b111100#6, 0b111101#6, 0b111110#6, 0b111111#6]

/-- The 17 opcode strings `L[0:6]` of R66 (R47). -/
def opcodeStrings : List Text :=
  ["000000".toList,
   "100000".toList, "100001".toList, "100011".toList, "101000".toList, "101001".toList,
   "101011".toList,
   "001000".toList, "001100".toList, "001101".toList, "001110".toList, "001111".toList,
   "000100".toList, "000101".toList, "000110".toList, "000111".toList, "000010".toList]

/-- A character that is not `0` or `1`. -/
abbrev NonBinary (c : Char) : Prop := c ≠ '0' ∧ c ≠ '1'

/-- The next item of `s` is the raw line `l`, with the lines `ls` after it. -/
structure NextLine (s : State) (l : Text) (ls : List Text) : Prop where
  noWord : s.words = []
  line : s.lines = some (l :: ls)

/-- The register fields that each renderer prints (the last column of R77; R103). -/
def printedFields (r : Renderer) (p : Ports) : List RegIndex :=
  match r with
  | .registerDefault => [p.rd, p.rs, p.rt]
  | .registerShift => [p.rt, p.rd]
  | .registerJump => [p.rs]
  | .jumpTarget => []
  | .immediateMemory => [p.rt, p.rs]
  | .immediateArithmetic => [p.rt, p.rs]
  | .immediateBranch => [p.rs, p.rt]
  | .immediateBranchSingle => [p.rs]

/-- The words agree on every field that renderer `r` prints (R77). -/
def SamePrinted (r : Renderer) (w v : Word) : Prop :=
  match r with
  | .registerDefault => rdOf w = rdOf v ∧ rsOf w = rsOf v ∧ rtOf w = rtOf v
  | .registerShift => rtOf w = rtOf v ∧ rdOf w = rdOf v ∧ shamtOf w = shamtOf v
  | .registerJump => rsOf w = rsOf v
  | .jumpTarget => addressOf w = addressOf v
  | .immediateMemory => rtOf w = rtOf v ∧ immOf w = immOf v ∧ rsOf w = rsOf v
  | .immediateArithmetic => rtOf w = rtOf v ∧ rsOf w = rsOf v ∧ immOf w = immOf v
  | .immediateBranch => rsOf w = rsOf v ∧ rtOf w = rtOf v ∧ immOf w = immOf v
  | .immediateBranchSingle => rsOf w = rsOf v ∧ immOf w = immOf v

/-- The number that a string of decimal digits denotes, most significant first. -/
def digitsValue (t : Text) : Nat := t.foldl (fun v c => 10 * v + (c.toNat - 48)) 0

/-- A decimal digit character. -/
def IsDigit (c : Char) : Prop := 48 ≤ c.toNat ∧ c.toNat ≤ 57

/-- The output line a raw line gives by R47, if it gives one. -/
def lineText (s : State) (l : Text) : Option Text :=
  match lineResult s.opc s.fn s.regn l with
  | .text x => some x
  | .skipped => none
  | .nonBinary => none

/-- How many of the lines the length filter keeps (R46). -/
def keptCount (ls : List Text) : Nat := (ls.filter (fun l => (trim l).length == 32)).length

/-- The outcome of R210 that a status stands for. -/
def statusOutcome : Status → DecodeOutcome
  | .ok => .ok
  | .invalidOpcode => .invalidOpcode
  | .invalidFunct => .invalidFunct

end Sys2Proof.Claims

open Sys2Proof Sys2Proof.Machine

/-! ## One statement per instruction (R121 to R200) -/

/-- `add` (R121): its encoding, every port it drives, the text and the flag for every operand and
every REG_NAMES, and the rule's corner cases and example under the default REG_NAMES, named as a
premise (`Claims.Prints`). -/
def Obligations.AddDrivesItsPorts : Prop :=
  (∀ (rs rt rd : RegIndex) (shamt : Shamt) (s : State),
    exec (.add rs rt rd shamt) s =
      .next (Claims.driven s (0b000000#6 ++ rs ++ rt ++ rd ++ shamt ++ 0b100000#6)
        (Claims.registerPorts rs rt rd shamt 0b100000#6 .add .registerDefault
          ((regName s.regn rd).isNone || (regName s.regn rs).isNone || (regName s.regn rt).isNone)
          ("add ".toList ++ regText s.regn rd ++ ", ".toList ++ regText s.regn rs ++ ", ".toList ++
          regText s.regn rt)))) ∧
  (∀ w : Word, decode w = .instr (.add (rsOf w) (rtOf w) (rdOf w) (shamtOf w)) ↔
    w &&& 0xFC00003F#32 = 0x00000020#32) ∧
  mnemonicIndex .add = 16#5 ∧ rendererIndex .registerDefault = 0#4 ∧
  Claims.Prints 0x010951E0#32 "add $t2, $t0, $t1".toList false ∧
  Claims.Prints 0x0109F820#32 "add $11111, $t0, $t1".toList true ∧
  Claims.Prints 0x01095020#32 "add $t2, $t0, $t1".toList false

/-- `sub` (R122): its encoding, every port it drives, the text and the flag for every operand and
every REG_NAMES, and the rule's corner cases and example under the default REG_NAMES, named as a
premise (`Claims.Prints`). -/
def Obligations.SubDrivesItsPorts : Prop :=
  (∀ (rs rt rd : RegIndex) (shamt : Shamt) (s : State),
    exec (.sub rs rt rd shamt) s =
      .next (Claims.driven s (0b000000#6 ++ rs ++ rt ++ rd ++ shamt ++ 0b100010#6)
        (Claims.registerPorts rs rt rd shamt 0b100010#6 .sub .registerDefault
          ((regName s.regn rd).isNone || (regName s.regn rs).isNone || (regName s.regn rt).isNone)
          ("sub ".toList ++ regText s.regn rd ++ ", ".toList ++ regText s.regn rs ++ ", ".toList ++
          regText s.regn rt)))) ∧
  (∀ w : Word, decode w = .instr (.sub (rsOf w) (rtOf w) (rdOf w) (shamtOf w)) ↔
    w &&& 0xFC00003F#32 = 0x00000022#32) ∧
  mnemonicIndex .sub = 17#5 ∧ rendererIndex .registerDefault = 0#4 ∧
  Claims.Prints 0x02119022#32 "sub $s2, $s0, $s1".toList false

/-- `and` (R123): its encoding, every port it drives, the text and the flag for every operand and
every REG_NAMES, and the rule's corner cases and example under the default REG_NAMES, named as a
premise (`Claims.Prints`). -/
def Obligations.AndDrivesItsPorts : Prop :=
  (∀ (rs rt rd : RegIndex) (shamt : Shamt) (s : State),
    exec (.and rs rt rd shamt) s =
      .next (Claims.driven s (0b000000#6 ++ rs ++ rt ++ rd ++ shamt ++ 0b100100#6)
        (Claims.registerPorts rs rt rd shamt 0b100100#6 .and .registerDefault
          ((regName s.regn rd).isNone || (regName s.regn rs).isNone || (regName s.regn rt).isNone)
          ("and ".toList ++ regText s.regn rd ++ ", ".toList ++ regText s.regn rs ++ ", ".toList ++
          regText s.regn rt)))) ∧
  (∀ w : Word, decode w = .instr (.and (rsOf w) (rtOf w) (rdOf w) (shamtOf w)) ↔
    w &&& 0xFC00003F#32 = 0x00000024#32) ∧
  mnemonicIndex .and = 18#5 ∧ rendererIndex .registerDefault = 0#4 ∧
  Claims.Prints 0x018D5824#32 "and $t3, $t4, $t5".toList false

/-- `or` (R124): its encoding, every port it drives, the text and the flag for every operand and
every REG_NAMES, and the rule's corner cases and example under the default REG_NAMES, named as a
premise (`Claims.Prints`). -/
def Obligations.OrDrivesItsPorts : Prop :=
  (∀ (rs rt rd : RegIndex) (shamt : Shamt) (s : State),
    exec (.or rs rt rd shamt) s =
      .next (Claims.driven s (0b000000#6 ++ rs ++ rt ++ rd ++ shamt ++ 0b100101#6)
        (Claims.registerPorts rs rt rd shamt 0b100101#6 .or .registerDefault
          ((regName s.regn rd).isNone || (regName s.regn rs).isNone || (regName s.regn rt).isNone)
          ("or ".toList ++ regText s.regn rd ++ ", ".toList ++ regText s.regn rs ++ ", ".toList ++
          regText s.regn rt)))) ∧
  (∀ w : Word, decode w = .instr (.or (rsOf w) (rtOf w) (rdOf w) (shamtOf w)) ↔
    w &&& 0xFC00003F#32 = 0x00000025#32) ∧
  mnemonicIndex .or = 19#5 ∧ rendererIndex .registerDefault = 0#4 ∧
  Claims.Prints 0x000F9825#32 "or $s3, $zero, $t7".toList false ∧
  (mnemonicText .or).length = 2 ∧
  (∀ m ∈ [Mnemonic.add, .sub, .and, .xor], (mnemonicText m).length ≠ 2)

/-- `xor` (R125): its encoding, every port it drives, the text and the flag for every operand and
every REG_NAMES, and the rule's corner cases and example under the default REG_NAMES, named as a
premise (`Claims.Prints`). -/
def Obligations.XorDrivesItsPorts : Prop :=
  (∀ (rs rt rd : RegIndex) (shamt : Shamt) (s : State),
    exec (.xor rs rt rd shamt) s =
      .next (Claims.driven s (0b000000#6 ++ rs ++ rt ++ rd ++ shamt ++ 0b100110#6)
        (Claims.registerPorts rs rt rd shamt 0b100110#6 .xor .registerDefault
          ((regName s.regn rd).isNone || (regName s.regn rs).isNone || (regName s.regn rt).isNone)
          ("xor ".toList ++ regText s.regn rd ++ ", ".toList ++ regText s.regn rs ++ ", ".toList ++
          regText s.regn rt)))) ∧
  (∀ w : Word, decode w = .instr (.xor (rsOf w) (rtOf w) (rdOf w) (shamtOf w)) ↔
    w &&& 0xFC00003F#32 = 0x00000026#32) ∧
  mnemonicIndex .xor = 20#5 ∧ rendererIndex .registerDefault = 0#4 ∧
  Claims.Prints 0x01084026#32 "xor $t0, $t0, $t0".toList false

/-- `sll` (R126): its encoding, every port it drives, the text and the flag for every operand and
every REG_NAMES, and the rule's corner cases and example under the default REG_NAMES, named as a
premise (`Claims.Prints`). -/
def Obligations.SllDrivesItsPorts : Prop :=
  (∀ (rs rt rd : RegIndex) (shamt : Shamt) (s : State),
    exec (.sll rs rt rd shamt) s =
      .next (Claims.driven s (0b000000#6 ++ rs ++ rt ++ rd ++ shamt ++ 0b000000#6)
        (Claims.registerPorts rs rt rd shamt 0b000000#6 .sll .registerShift
          ((regName s.regn rt).isNone || (regName s.regn rd).isNone)
          ("sll ".toList ++ regText s.regn rt ++ ", ".toList ++ regText s.regn rd ++ ", ".toList ++
          decNat shamt.toNat)))) ∧
  (∀ w : Word, decode w = .instr (.sll (rsOf w) (rtOf w) (rdOf w) (shamtOf w)) ↔
    w &&& 0xFC00003F#32 = 0x00000000#32) ∧
  mnemonicIndex .sll = 21#5 ∧ rendererIndex .registerShift = 1#4 ∧
  Claims.Prints 0x03E94100#32 "sll $t1, $t0, 4".toList false ∧
  Claims.Prints 0x00000000#32 "sll $zero, $zero, 0".toList false ∧
  Claims.Prints 0x00094100#32 "sll $t1, $t0, 4".toList false

/-- `srl` (R127): its encoding, every port it drives, the text and the flag for every operand and
every REG_NAMES, and the rule's corner cases and example under the default REG_NAMES, named as a
premise (`Claims.Prints`). -/
def Obligations.SrlDrivesItsPorts : Prop :=
  (∀ (rs rt rd : RegIndex) (shamt : Shamt) (s : State),
    exec (.srl rs rt rd shamt) s =
      .next (Claims.driven s (0b000000#6 ++ rs ++ rt ++ rd ++ shamt ++ 0b000010#6)
        (Claims.registerPorts rs rt rd shamt 0b000010#6 .srl .registerShift
          ((regName s.regn rt).isNone || (regName s.regn rd).isNone)
          ("srl ".toList ++ regText s.regn rt ++ ", ".toList ++ regText s.regn rd ++ ", ".toList ++
          decNat shamt.toNat)))) ∧
  (∀ w : Word, decode w = .instr (.srl (rsOf w) (rtOf w) (rdOf w) (shamtOf w)) ↔
    w &&& 0xFC00003F#32 = 0x00000002#32) ∧
  mnemonicIndex .srl = 22#5 ∧ rendererIndex .registerShift = 1#4 ∧
  Claims.Prints 0x00018842#32 "srl $00001, $s1, 1".toList true ∧
  Claims.Prints 0x00108FC2#32 "srl $s0, $s1, 31".toList false

/-- `jr` (R128): its encoding, every port it drives, the text and the flag for every operand and
every REG_NAMES, and the rule's corner cases and example under the default REG_NAMES, named as a
premise (`Claims.Prints`). -/
def Obligations.JrDrivesItsPorts : Prop :=
  (∀ (rs rt rd : RegIndex) (shamt : Shamt) (s : State),
    exec (.jr rs rt rd shamt) s =
      .next (Claims.driven s (0b000000#6 ++ rs ++ rt ++ rd ++ shamt ++ 0b001000#6)
        (Claims.registerPorts rs rt rd shamt 0b001000#6 .jr .registerJump
          ((regName s.regn rs).isNone)
          ("jr ".toList ++ regText s.regn rs)))) ∧
  (∀ w : Word, decode w = .instr (.jr (rsOf w) (rtOf w) (rdOf w) (shamtOf w)) ↔
    w &&& 0xFC00003F#32 = 0x00000008#32) ∧
  mnemonicIndex .jr = 23#5 ∧ rendererIndex .registerJump = 2#4 ∧
  Claims.Prints 0x011FFFC8#32 "jr $t0".toList false ∧
  Claims.Prints 0x03E00008#32 "jr $11111".toList true ∧
  Claims.Prints 0x02E00008#32 "jr $s7".toList false

/-- `lb` (R141): its encoding, every port it drives, the text and the flag for every operand and
every REG_NAMES, and the rule's corner cases and example under the default REG_NAMES, named as a
premise (`Claims.Prints`). -/
def Obligations.LbDrivesItsPorts : Prop :=
  (∀ (rs rt : RegIndex) (imm : Imm16) (s : State),
    exec (.lb rs rt imm) s =
      .next (Claims.driven s (0b100000#6 ++ rs ++ rt ++ imm)
        (Claims.immediatePorts 0b100000#6 rs rt imm .lb .immediateMemory
          ((regName s.regn rt).isNone || (regName s.regn rs).isNone)
          ("lb, ".toList ++ regText s.regn rt ++ ", ".toList ++ decInt imm.toInt ++ "(".toList ++
          regText s.regn rs ++ ")".toList)))) ∧
  (∀ w : Word, decode w = .instr (.lb (rsOf w) (rtOf w) (immOf w)) ↔
    w &&& 0xFC000000#32 = 0x80000000#32) ∧
  mnemonicIndex .lb = 0#5 ∧ rendererIndex .immediateMemory = 4#4 ∧
  Claims.Prints 0x8208FFFF#32 "lb, $t0, -1($s0)".toList false

/-- `lh` (R142): its encoding, every port it drives, the text and the flag for every operand and
every REG_NAMES, and the rule's corner cases and example under the default REG_NAMES, named as a
premise (`Claims.Prints`). -/
def Obligations.LhDrivesItsPorts : Prop :=
  (∀ (rs rt : RegIndex) (imm : Imm16) (s : State),
    exec (.lh rs rt imm) s =
      .next (Claims.driven s (0b100001#6 ++ rs ++ rt ++ imm)
        (Claims.immediatePorts 0b100001#6 rs rt imm .lh .immediateMemory
          ((regName s.regn rt).isNone || (regName s.regn rs).isNone)
          ("lh, ".toList ++ regText s.regn rt ++ ", ".toList ++ decInt imm.toInt ++ "(".toList ++
          regText s.regn rs ++ ")".toList)))) ∧
  (∀ w : Word, decode w = .instr (.lh (rsOf w) (rtOf w) (immOf w)) ↔
    w &&& 0xFC000000#32 = 0x84000000#32) ∧
  mnemonicIndex .lh = 1#5 ∧ rendererIndex .immediateMemory = 4#4 ∧
  Claims.Prints 0x87A9FFFE#32 "lh, $t1, -2($11101)".toList true

/-- `lw` (R143): its encoding, every port it drives, the text and the flag for every operand and
every REG_NAMES, and the rule's corner cases and example under the default REG_NAMES, named as a
premise (`Claims.Prints`). -/
def Obligations.LwDrivesItsPorts : Prop :=
  (∀ (rs rt : RegIndex) (imm : Imm16) (s : State),
    exec (.lw rs rt imm) s =
      .next (Claims.driven s (0b100011#6 ++ rs ++ rt ++ imm)
        (Claims.immediatePorts 0b100011#6 rs rt imm .lw .immediateMemory
          ((regName s.regn rt).isNone || (regName s.regn rs).isNone)
          ("lw, ".toList ++ regText s.regn rt ++ ", ".toList ++ decInt imm.toInt ++ "(".toList ++
          regText s.regn rs ++ ")".toList)))) ∧
  (∀ w : Word, decode w = .instr (.lw (rsOf w) (rtOf w) (immOf w)) ↔
    w &&& 0xFC000000#32 = 0x8C000000#32) ∧
  mnemonicIndex .lw = 2#5 ∧ rendererIndex .immediateMemory = 4#4 ∧
  Claims.Prints 0x8D0A0001#32 "lw, $t2, 1($t0)".toList false ∧
  Claims.Prints 0x8D0A0004#32 "lw, $t2, 4($t0)".toList false

/-- `sb` (R144): its encoding, every port it drives, the text and the flag for every operand and
every REG_NAMES, and the rule's corner cases and example under the default REG_NAMES, named as a
premise (`Claims.Prints`). -/
def Obligations.SbDrivesItsPorts : Prop :=
  (∀ (rs rt : RegIndex) (imm : Imm16) (s : State),
    exec (.sb rs rt imm) s =
      .next (Claims.driven s (0b101000#6 ++ rs ++ rt ++ imm)
        (Claims.immediatePorts 0b101000#6 rs rt imm .sb .immediateMemory
          ((regName s.regn rt).isNone || (regName s.regn rs).isNone)
          ("sb, ".toList ++ regText s.regn rt ++ ", ".toList ++ decInt imm.toInt ++ "(".toList ++
          regText s.regn rs ++ ")".toList)))) ∧
  (∀ w : Word, decode w = .instr (.sb (rsOf w) (rtOf w) (immOf w)) ↔
    w &&& 0xFC000000#32 = 0xA0000000#32) ∧
  mnemonicIndex .sb = 3#5 ∧ rendererIndex .immediateMemory = 4#4 ∧
  Claims.Prints 0xA1097FFF#32 "sb, $t1, 32767($t0)".toList false

/-- `sh` (R145): its encoding, every port it drives, the text and the flag for every operand and
every REG_NAMES, and the rule's corner cases and example under the default REG_NAMES, named as a
premise (`Claims.Prints`). -/
def Obligations.ShDrivesItsPorts : Prop :=
  (∀ (rs rt : RegIndex) (imm : Imm16) (s : State),
    exec (.sh rs rt imm) s =
      .next (Claims.driven s (0b101001#6 ++ rs ++ rt ++ imm)
        (Claims.immediatePorts 0b101001#6 rs rt imm .sh .immediateMemory
          ((regName s.regn rt).isNone || (regName s.regn rs).isNone)
          ("sh, ".toList ++ regText s.regn rt ++ ", ".toList ++ decInt imm.toInt ++ "(".toList ++
          regText s.regn rs ++ ")".toList)))) ∧
  (∀ w : Word, decode w = .instr (.sh (rsOf w) (rtOf w) (immOf w)) ↔
    w &&& 0xFC000000#32 = 0xA4000000#32) ∧
  mnemonicIndex .sh = 4#5 ∧ rendererIndex .immediateMemory = 4#4 ∧
  Claims.Prints 0xA40A8000#32 "sh, $t2, -32768($zero)".toList false

/-- `sw` (R146): its encoding, every port it drives, the text and the flag for every operand and
every REG_NAMES, and the rule's corner cases and example under the default REG_NAMES, named as a
premise (`Claims.Prints`). -/
def Obligations.SwDrivesItsPorts : Prop :=
  (∀ (rs rt : RegIndex) (imm : Imm16) (s : State),
    exec (.sw rs rt imm) s =
      .next (Claims.driven s (0b101011#6 ++ rs ++ rt ++ imm)
        (Claims.immediatePorts 0b101011#6 rs rt imm .sw .immediateMemory
          ((regName s.regn rt).isNone || (regName s.regn rs).isNone)
          ("sw, ".toList ++ regText s.regn rt ++ ", ".toList ++ decInt imm.toInt ++ "(".toList ++
          regText s.regn rs ++ ")".toList)))) ∧
  (∀ w : Word, decode w = .instr (.sw (rsOf w) (rtOf w) (immOf w)) ↔
    w &&& 0xFC000000#32 = 0xAC000000#32) ∧
  mnemonicIndex .sw = 5#5 ∧ rendererIndex .immediateMemory = 4#4 ∧
  Claims.Prints 0xAE320000#32 "sw, $s2, 0($s1)".toList false

/-- `addi` (R161): its encoding, every port it drives, the text and the flag for every operand and
every REG_NAMES, and the rule's corner cases and example under the default REG_NAMES, named as a
premise (`Claims.Prints`). -/
def Obligations.AddiDrivesItsPorts : Prop :=
  (∀ (rs rt : RegIndex) (imm : Imm16) (s : State),
    exec (.addi rs rt imm) s =
      .next (Claims.driven s (0b001000#6 ++ rs ++ rt ++ imm)
        (Claims.immediatePorts 0b001000#6 rs rt imm .addi .immediateArithmetic
          ((regName s.regn rt).isNone || (regName s.regn rs).isNone)
          ("addi, ".toList ++ regText s.regn rt ++ ", ".toList ++ regText s.regn rs ++ ", ".toList ++
          decInt imm.toInt)))) ∧
  (∀ w : Word, decode w = .instr (.addi (rsOf w) (rtOf w) (immOf w)) ↔
    w &&& 0xFC000000#32 = 0x20000000#32) ∧
  mnemonicIndex .addi = 6#5 ∧ rendererIndex .immediateArithmetic = 5#4 ∧
  Claims.Prints 0x21088000#32 "addi, $t0, $t0, -32768".toList false ∧
  Claims.Prints 0x20080005#32 "addi, $t0, $zero, 5".toList false

/-- `andi` (R162): its encoding, every port it drives, the text and the flag for every operand and
every REG_NAMES, and the rule's corner cases and example under the default REG_NAMES, named as a
premise (`Claims.Prints`). -/
def Obligations.AndiDrivesItsPorts : Prop :=
  (∀ (rs rt : RegIndex) (imm : Imm16) (s : State),
    exec (.andi rs rt imm) s =
      .next (Claims.driven s (0b001100#6 ++ rs ++ rt ++ imm)
        (Claims.immediatePorts 0b001100#6 rs rt imm .andi .immediateArithmetic
          ((regName s.regn rt).isNone || (regName s.regn rs).isNone)
          ("andi, ".toList ++ regText s.regn rt ++ ", ".toList ++ regText s.regn rs ++ ", ".toList ++
          decInt imm.toInt)))) ∧
  (∀ w : Word, decode w = .instr (.andi (rsOf w) (rtOf w) (immOf w)) ↔
    w &&& 0xFC000000#32 = 0x30000000#32) ∧
  mnemonicIndex .andi = 7#5 ∧ rendererIndex .immediateArithmetic = 5#4 ∧
  Claims.Prints 0x3129FFFF#32 "andi, $t1, $t1, -1".toList false

/-- `ori` (R163): its encoding, every port it drives, the text and the flag for every operand and
every REG_NAMES, and the rule's corner cases and example under the default REG_NAMES, named as a
premise (`Claims.Prints`). -/
def Obligations.OriDrivesItsPorts : Prop :=
  (∀ (rs rt : RegIndex) (imm : Imm16) (s : State),
    exec (.ori rs rt imm) s =
      .next (Claims.driven s (0b001101#6 ++ rs ++ rt ++ imm)
        (Claims.immediatePorts 0b001101#6 rs rt imm .ori .immediateArithmetic
          ((regName s.regn rt).isNone || (regName s.regn rs).isNone)
          ("ori, ".toList ++ regText s.regn rt ++ ", ".toList ++ regText s.regn rs ++ ", ".toList ++
          decInt imm.toInt)))) ∧
  (∀ w : Word, decode w = .instr (.ori (rsOf w) (rtOf w) (immOf w)) ↔
    w &&& 0xFC000000#32 = 0x34000000#32) ∧
  mnemonicIndex .ori = 8#5 ∧ rendererIndex .immediateArithmetic = 5#4 ∧
  Claims.Prints 0x34101234#32 "ori, $s0, $zero, 4660".toList false

/-- `xori` (R164): its encoding, every port it drives, the text and the flag for every operand and
every REG_NAMES, and the rule's corner cases and example under the default REG_NAMES, named as a
premise (`Claims.Prints`). -/
def Obligations.XoriDrivesItsPorts : Prop :=
  (∀ (rs rt : RegIndex) (imm : Imm16) (s : State),
    exec (.xori rs rt imm) s =
      .next (Claims.driven s (0b001110#6 ++ rs ++ rt ++ imm)
        (Claims.immediatePorts 0b001110#6 rs rt imm .xori .immediateArithmetic
          ((regName s.regn rt).isNone || (regName s.regn rs).isNone)
          ("xori, ".toList ++ regText s.regn rt ++ ", ".toList ++ regText s.regn rs ++ ", ".toList ++
          decInt imm.toInt)))) ∧
  (∀ w : Word, decode w = .instr (.xori (rsOf w) (rtOf w) (immOf w)) ↔
    w &&& 0xFC000000#32 = 0x38000000#32) ∧
  mnemonicIndex .xori = 9#5 ∧ rendererIndex .immediateArithmetic = 5#4 ∧
  Claims.Prints 0x3A958001#32 "xori, $s5, $s4, -32767".toList false

/-- `liu` (R165): its encoding, every port it drives, the text and the flag for every operand and
every REG_NAMES, and the rule's corner cases and example under the default REG_NAMES, named as a
premise (`Claims.Prints`). -/
def Obligations.LiuDrivesItsPorts : Prop :=
  (∀ (rs rt : RegIndex) (imm : Imm16) (s : State),
    exec (.liu rs rt imm) s =
      .next (Claims.driven s (0b001111#6 ++ rs ++ rt ++ imm)
        (Claims.immediatePorts 0b001111#6 rs rt imm .liu .immediateArithmetic
          ((regName s.regn rt).isNone || (regName s.regn rs).isNone)
          ("liu, ".toList ++ regText s.regn rt ++ ", ".toList ++ regText s.regn rs ++ ", ".toList ++
          decInt imm.toInt)))) ∧
  (∀ w : Word, decode w = .instr (.liu (rsOf w) (rtOf w) (immOf w)) ↔
    w &&& 0xFC000000#32 = 0x3C000000#32) ∧
  mnemonicIndex .liu = 10#5 ∧ rendererIndex .immediateArithmetic = 5#4 ∧
  Claims.Prints 0x3D28FFFF#32 "liu, $t0, $t1, -1".toList false ∧
  Claims.Prints 0x3C081000#32 "liu, $t0, $zero, 4096".toList false

/-- `beq` (R181): its encoding, every port it drives, the text and the flag for every operand and
every REG_NAMES, and the rule's corner cases and example under the default REG_NAMES, named as a
premise (`Claims.Prints`). -/
def Obligations.BeqDrivesItsPorts : Prop :=
  (∀ (rs rt : RegIndex) (imm : Imm16) (s : State),
    exec (.beq rs rt imm) s =
      .next (Claims.driven s (0b000100#6 ++ rs ++ rt ++ imm)
        (Claims.immediatePorts 0b000100#6 rs rt imm .beq .immediateBranch
          ((regName s.regn rs).isNone || (regName s.regn rt).isNone)
          ("beq, ".toList ++ regText s.regn rs ++ ", ".toList ++ regText s.regn rt ++ ", ".toList ++
          decInt imm.toInt)))) ∧
  (∀ w : Word, decode w = .instr (.beq (rsOf w) (rtOf w) (immOf w)) ↔
    w &&& 0xFC000000#32 = 0x10000000#32) ∧
  mnemonicIndex .beq = 11#5 ∧ rendererIndex .immediateBranch = 6#4 ∧
  Claims.Prints 0x11080000#32 "beq, $t0, $t0, 0".toList false ∧
  Claims.Prints 0x1109FFFD#32 "beq, $t0, $t1, -3".toList false

/-- `bne` (R182): its encoding, every port it drives, the text and the flag for every operand and
every REG_NAMES, and the rule's corner cases and example under the default REG_NAMES, named as a
premise (`Claims.Prints`). -/
def Obligations.BneDrivesItsPorts : Prop :=
  (∀ (rs rt : RegIndex) (imm : Imm16) (s : State),
    exec (.bne rs rt imm) s =
      .next (Claims.driven s (0b000101#6 ++ rs ++ rt ++ imm)
        (Claims.immediatePorts 0b000101#6 rs rt imm .bne .immediateBranch
          ((regName s.regn rs).isNone || (regName s.regn rt).isNone)
          ("bne, ".toList ++ regText s.regn rs ++ ", ".toList ++ regText s.regn rt ++ ", ".toList ++
          decInt imm.toInt)))) ∧
  (∀ w : Word, decode w = .instr (.bne (rsOf w) (rtOf w) (immOf w)) ↔
    w &&& 0xFC000000#32 = 0x14000000#32) ∧
  mnemonicIndex .bne = 12#5 ∧ rendererIndex .immediateBranch = 6#4 ∧
  Claims.Prints 0x16007FFF#32 "bne, $s0, $zero, 32767".toList false

/-- `blez` (R183): its encoding, every port it drives, the text and the flag for every operand and
every REG_NAMES, and the rule's corner cases and example under the default REG_NAMES, named as a
premise (`Claims.Prints`). -/
def Obligations.BlezDrivesItsPorts : Prop :=
  (∀ (rs rt : RegIndex) (imm : Imm16) (s : State),
    exec (.blez rs rt imm) s =
      .next (Claims.driven s (0b000110#6 ++ rs ++ rt ++ imm)
        (Claims.immediatePorts 0b000110#6 rs rt imm .blez .immediateBranchSingle
          ((regName s.regn rs).isNone)
          ("blez ".toList ++ regText s.regn rs ++ ", ".toList ++ decInt imm.toInt)))) ∧
  (∀ w : Word, decode w = .instr (.blez (rsOf w) (rtOf w) (immOf w)) ↔
    w &&& 0xFC000000#32 = 0x18000000#32) ∧
  mnemonicIndex .blez = 13#5 ∧ rendererIndex .immediateBranchSingle = 7#4 ∧
  Claims.Prints 0x191FFFFF#32 "blez $t0, -1".toList false ∧
  Claims.Prints 0x1900000A#32 "blez $t0, 10".toList false

/-- `bgtz` (R184): its encoding, every port it drives, the text and the flag for every operand and
every REG_NAMES, and the rule's corner cases and example under the default REG_NAMES, named as a
premise (`Claims.Prints`). -/
def Obligations.BgtzDrivesItsPorts : Prop :=
  (∀ (rs rt : RegIndex) (imm : Imm16) (s : State),
    exec (.bgtz rs rt imm) s =
      .next (Claims.driven s (0b000111#6 ++ rs ++ rt ++ imm)
        (Claims.immediatePorts 0b000111#6 rs rt imm .bgtz .immediateBranchSingle
          ((regName s.regn rs).isNone)
          ("bgtz ".toList ++ regText s.regn rs ++ ", ".toList ++ decInt imm.toInt)))) ∧
  (∀ w : Word, decode w = .instr (.bgtz (rsOf w) (rtOf w) (immOf w)) ↔
    w &&& 0xFC000000#32 = 0x1C000000#32) ∧
  mnemonicIndex .bgtz = 14#5 ∧ rendererIndex .immediateBranchSingle = 7#4 ∧
  Claims.Prints 0x1E208000#32 "bgtz $s1, -32768".toList false ∧
  Claims.Prints 0x1C400001#32 "bgtz $00010, 1".toList true

/-- `j` (R200): its encoding, every port it drives, the text and the flag for every operand and
every REG_NAMES, and the rule's corner cases and example under the default REG_NAMES, named as a
premise (`Claims.Prints`). -/
def Obligations.JDrivesItsPorts : Prop :=
  (∀ (address : Addr26) (s : State),
    exec (.j address) s =
      .next (Claims.driven s (0b000010#6 ++ address)
        (Claims.jumpPorts 0b000010#6 address .j .jumpTarget
          (false)
          ("j ".toList ++ decNat address.toNat)))) ∧
  (∀ w : Word, decode w = .instr (.j (addressOf w)) ↔
    w &&& 0xFC000000#32 = 0x08000000#32) ∧
  mnemonicIndex .j = 15#5 ∧ rendererIndex .jumpTarget = 3#4 ∧
  Claims.Prints 0x08000000#32 "j 0".toList false ∧
  Claims.Prints 0x0BFFFFFF#32 "j 67108863".toList false ∧
  Claims.Prints 0x08100000#32 "j 1048576".toList false

/-! ## Families -/

/-- R120 with R94, R95 and R69: under opcode `000000` the function code decides. -/
def Obligations.RegisterOpcodeFollowsFunctionCode : Prop :=
  ∀ (s : State) (w : Word) (ws : List HostWord), s.RomOk → s.words = .driven w :: ws →
    opcodeOf w = 0b000000#6 →
    (∀ row ∈ Claims.functRows, functOf w = row.1 →
      Claims.StepPorts s fun p => p.fmt = .register ∧ p.status = .ok ∧ p.mnem = some row.2.mnem ∧
        p.rend = some row.2.rend) ∧
    (functOf w ∈ Claims.undefinedFuncts →
      funEntry s.fn (functOf w) = none ∧
      Claims.StepPorts s fun p => p.fmt = .register ∧ p.status = .invalidFunct ∧ p.mnem = none ∧
        p.rend = none ∧ p.regUnresolved = false ∧ p.text = "Invalid opcode".toList) ∧
    (functOf w ∈ Claims.undefinedFuncts ↔ ∀ row ∈ Claims.functRows, functOf w ≠ row.1)

/-- R140: the memory family, from the word to the ports. -/
def Obligations.MemoryFamilyPrintsOffsetAndBase : Prop :=
  ∀ (s : State) (w : Word) (ws : List HostWord), s.RomOk → s.words = .driven w :: ws →
    opcodeOf w ∈ [0b100000#6, 0b100001#6, 0b100011#6, 0b101000#6, 0b101001#6, 0b101011#6] →
    -32768 ≤ (immOf w).toInt ∧ (immOf w).toInt ≤ 32767 ∧ rendererIndex .immediateMemory = 4#4 ∧
    Claims.StepPorts s fun p => p.fmt = .immediate ∧ p.status = .ok ∧
      p.rend = some .immediateMemory ∧
      p.regUnresolved = ((regName s.regn (rtOf w)).isNone || (regName s.regn (rsOf w)).isNone) ∧
      ∃ m, p.mnem = some m ∧ m ∈ [Mnemonic.lb, .lh, .lw, .sb, .sh, .sw] ∧
        p.text = mnemonicText m ++ ", ".toList ++ regText s.regn (rtOf w) ++ ", ".toList ++
          decInt (immOf w).toInt ++ "(".toList ++ regText s.regn (rsOf w) ++ ")".toList

/-- R160: the arithmetic family, from the word to the ports; the immediate is signed for all five. -/
def Obligations.ArithmeticFamilyPrintsSignedImmediate : Prop :=
  ∀ (s : State) (w : Word) (ws : List HostWord), s.RomOk → s.words = .driven w :: ws →
    opcodeOf w ∈ [0b001000#6, 0b001100#6, 0b001101#6, 0b001110#6, 0b001111#6] →
    (immOf w = 0xFFFF#16 → decInt (immOf w).toInt = "-1".toList) ∧
    rendererIndex .immediateArithmetic = 5#4 ∧
    Claims.StepPorts s fun p => p.fmt = .immediate ∧ p.status = .ok ∧
      p.rend = some .immediateArithmetic ∧
      p.regUnresolved = ((regName s.regn (rtOf w)).isNone || (regName s.regn (rsOf w)).isNone) ∧
      ∃ m, p.mnem = some m ∧ m ∈ [Mnemonic.addi, .andi, .ori, .xori, .liu] ∧
        p.text = mnemonicText m ++ ", ".toList ++ regText s.regn (rtOf w) ++ ", ".toList ++
          regText s.regn (rsOf w) ++ ", ".toList ++ decInt (immOf w).toInt

/-- R180: the branch family, from the word to the ports; the offset is the raw signed field. -/
def Obligations.BranchFamilyPrintsRawOffset : Prop :=
  ∀ (s : State) (w : Word) (ws : List HostWord), s.RomOk → s.words = .driven w :: ws →
    (opcodeOf w ∈ [0b000100#6, 0b000101#6] →
      Claims.StepPorts s fun p => p.fmt = .immediate ∧ p.status = .ok ∧
        p.rend = some .immediateBranch ∧
        ∃ m, p.mnem = some m ∧ m ∈ [Mnemonic.beq, .bne] ∧
          p.text = mnemonicText m ++ ", ".toList ++ regText s.regn (rsOf w) ++ ", ".toList ++
            regText s.regn (rtOf w) ++ ", ".toList ++ decInt (immOf w).toInt) ∧
    (opcodeOf w ∈ [0b000110#6, 0b000111#6] →
      Claims.StepPorts s fun p => p.fmt = .immediate ∧ p.status = .ok ∧
        p.rend = some .immediateBranchSingle ∧
        ∃ m, p.mnem = some m ∧ m ∈ [Mnemonic.blez, .bgtz] ∧
          p.text = mnemonicText m ++ " ".toList ++ regText s.regn (rsOf w) ++ ", ".toList ++
            decInt (immOf w).toInt)

/-- R201: `000010` alone selects the jump format, and `000011` is undefined. -/
def Obligations.OnlyOneOpcodeIsAJump : Prop :=
  (∀ (s : State) (w : Word) (ws : List HostWord), s.RomOk → s.words = .driven w :: ws →
    Claims.StepPorts s fun p => p.fmt = .jump ↔ opcodeOf w = 0b000010#6) ∧
  (∀ (s : State) (ws : List HostWord), s.RomOk → s.words = .driven 0x0C000005#32 :: ws →
    opcEntry s.opc 0b000011#6 = none ∧
    Claims.StepPorts s fun p => p.status = .invalidOpcode ∧ p.text = "Invalid opcode".toList)

/-! ## Decoding -/

/-- Decode after encode: no operand bit of any instruction is dropped. -/
def Obligations.DecodeEncodeIsIdentity : Prop :=
  ∀ i : Instr, decode (encode i) = .instr i

/-- Encode after decode: no bit of an instruction word is dropped. -/
def Obligations.EncodeDecodeIsIdentity : Prop :=
  ∀ (w : Word) (i : Instr), decode w = .instr i → encode i = w

/-- Words written out from R62 to R67 field by field, one per family, decode to what they stand for. -/
def Obligations.SampleWordsDecode : Prop :=
  decode 0b00000001000010010101000000100000#32 =
    .instr (.add 0b01000#5 0b01001#5 0b01010#5 0b00000#5) ∧
  decode 0b00000000000010010100000100000000#32 =
    .instr (.sll 0b00000#5 0b01001#5 0b01000#5 0b00100#5) ∧
  decode 0b00000010111000000000000000001000#32 =
    .instr (.jr 0b10111#5 0b00000#5 0b00000#5 0b00000#5) ∧
  decode 0b10001101000010100000000000000100#32 = .instr (.lw 0b01000#5 0b01010#5 4#16) ∧
  decode 0b00111100000010000001000000000000#32 = .instr (.liu 0b00000#5 0b01000#5 0x1000#16) ∧
  decode 0b00010001000010011111111111111101#32 = .instr (.beq 0b01000#5 0b01001#5 0xFFFD#16) ∧
  decode 0b00011110001000001000000000000000#32 = .instr (.bgtz 0b10001#5 0b00000#5 0x8000#16) ∧
  decode 0b00001000000100000000000000000000#32 = .instr (.j 0x0100000#26) ∧
  decode 0b11111111111111111111111111111111#32 = .invalidOpcode ∧
  decode 0b00000000000000000000000000001100#32 = .invalidFunct

/-- R66 and R67: the contents of `OPC` and `FUN`, present at reset, with their indices; and `FUN` is
consulted only under `000000`. -/
def Obligations.DispatchTablesHoldTheirRows : Prop :=
  (∀ (o : Opcode) (e : OpcEntry),
    opcEntry State.reset.opc o = some e ↔ (o, e) ∈ Claims.opcodeRows) ∧
  (∀ (f : Funct) (e : FunEntry), funEntry State.reset.fn f = some e ↔ (f, e) ∈ Claims.functRows) ∧
  Claims.opcodeRows.length = 17 ∧ Claims.functRows.length = 8 ∧
  Claims.opcodeRows.map (fun row => Claims.entryCodes row.2) =
    [none, some (0, 4), some (1, 4), some (2, 4), some (3, 4), some (4, 4), some (5, 4), some (6, 5),
     some (7, 5), some (8, 5), some (9, 5), some (10, 5), some (11, 6), some (12, 6), some (13, 7),
     some (14, 7), some (15, 3)] ∧
  Claims.functRows.map (fun row => ((mnemonicIndex row.2.mnem).toNat, (rendererIndex row.2.rend).toNat)) =
    [(16, 0), (17, 0), (18, 0), (19, 0), (20, 0), (21, 1), (22, 1), (23, 2)] ∧
  (∀ (f : FunTable) (w : Word), opcodeOf w ≠ 0b000000#6 →
    decodeWith State.reset.opc f w = decodeWith State.reset.opc State.reset.fn w) ∧
  (∀ o : Opcode, opcEntry State.reset.opc o = none ↔ o ∈ Claims.undefinedOpcodes) ∧
  (∀ f : Funct, funEntry State.reset.fn f = none ↔ f ∈ Claims.undefinedFuncts) ∧
  Claims.undefinedOpcodes.length = 47 ∧ Claims.undefinedFuncts.length = 56

/-- R102: a named index prints its name, any other `$` and its five bits, for every REG_NAMES. -/
def Obligations.RegisterTextIsNameOrBits : Prop :=
  (∀ (t : RegNames) (r : RegIndex) (n : Text), regName t r = some n → regText t r = n) ∧
  (∀ (t : RegNames) (r : RegIndex), regName t r = none →
    (regText t r).length = 6 ∧ (regText t r)[0]? = some '$' ∧
    ∀ i < 5, (regText t r)[5 - i]? = some (if r.getLsbD i then '1' else '0')) ∧
  (∀ t : RegNames, regName t 0b00001#5 = none → regText t 0b00001#5 = "$00001".toList) ∧
  (∀ t : RegNames, regName t 0b11111#5 = none → regText t 0b11111#5 = "$11111".toList)

/-- R103: the flag is set exactly when a register field that the renderer prints has no name, and it
leaves the status `OK`; the text then holds what `reg` gives for each such field. -/
def Obligations.UnresolvedFlagsPrintedFieldsOnly : Prop :=
  ∀ (s : State) (w : Word) (ws : List HostWord), s.RomOk → s.words = .driven w :: ws →
    Claims.StepPorts s fun p =>
      (∀ r, p.rend = some r → p.status = .ok ∧
        (p.regUnresolved = true ↔ ∃ f ∈ Claims.printedFields r p, regName s.regn f = none) ∧
        ∀ f ∈ Claims.printedFields r p, regText s.regn f <:+: p.text) ∧
      (p.rend = none → p.regUnresolved = false)

/-- R100: the value of the sign conversion, and when it is negative. -/
def Obligations.ImmediateIsNegativeIffTopBit : Prop :=
  ∀ b : Imm16,
    (sintImm b < 0 ↔ b.msb = true) ∧
    (b.msb = true → sintImm b = (b.toNat : Int) - 65536) ∧
    (b.msb = false → sintImm b = (b.toNat : Int)) ∧
    sintImm b = b.toInt

/-- R101: decimal text, for every integer. -/
def Obligations.DecimalTextIsCanonical : Prop :=
  decInt 0 = "0".toList ∧
  (∀ n : Nat, 0 < n →
    (∀ c ∈ decInt n, Claims.IsDigit c) ∧ (decInt n).head? ≠ some '0' ∧
    Claims.digitsValue (decInt n) = n) ∧
  (∀ n : Nat, 0 < n → decInt (-(n : Int)) = '-' :: decInt n) ∧
  (∀ n : Nat, decNat n = decInt n)

/-- The bounds that 40_decode_pipeline.md derives for the text, from every state of the machine: 3 to 28
printable characters, no TAB and no line terminator; both bounds are reached. -/
def Obligations.TextIsShortPrintableLine : Prop :=
  (∀ (s : State) (p : Ports), s.Inv → s.ports = some p →
    3 ≤ p.text.length ∧ p.text.length ≤ 28 ∧
    ∀ c ∈ p.text, 0x20 ≤ c.toNat ∧ c.toNat ≤ 0x7E) ∧
  Claims.Prints 0x08000000#32 "j 0".toList false ∧ "j 0".toList.length = 3 ∧
  Claims.Prints 0x23FF8000#32 "addi, $11111, $11111, -32768".toList true ∧
  "addi, $11111, $11111, -32768".toList.length = 28

/-- R70: two words with the same opcode, the same function code under `000000`, and the same printed
fields give the same outcome, mnemonic, renderer, flag and text. -/
def Obligations.UnprintedFieldsChangeNothing : Prop :=
  ∀ (s s' : State) (w v : Word) (ws ws' : List HostWord), s.RomOk → s'.RomOk → s.regn = s'.regn →
    s.words = .driven w :: ws → s'.words = .driven v :: ws' →
    opcodeOf w = opcodeOf v → (opcodeOf w = 0b000000#6 → functOf w = functOf v) →
    ∃ t t' p p', step s = .next t ∧ step s' = .next t' ∧ t.ports = some p ∧ t'.ports = some p' ∧
      p.fmt = p'.fmt ∧ p.status = p'.status ∧ p.mnem = p'.mnem ∧ p.rend = p'.rend ∧
      ((∀ r, p.rend = some r → Claims.SamePrinted r w v) →
        p.regUnresolved = p'.regUnresolved ∧ p.text = p'.text)

/-- R92 and R68: a word with one of the 47 undefined opcodes, whatever its other 26 bits. -/
def Obligations.UndefinedOpcodeGivesInvalidOpcode : Prop :=
  ∀ (s : State) (w : Word) (ws : List HostWord), s.RomOk → s.words = .driven w :: ws →
    (opcodeOf w ∈ Claims.undefinedOpcodes ↔ opcEntry s.opc (opcodeOf w) = none) ∧
    (opcodeOf w ∈ Claims.undefinedOpcodes →
      Claims.StepPorts s fun p => p.fmt = .none ∧ p.status = .invalidOpcode ∧ p.mnem = none ∧
        p.rend = none ∧ p.regUnresolved = false ∧ p.text = "Invalid opcode".toList ∧
        p.text.length = 14)

/-! ## The step -/

/-- A word that decodes to an instruction makes the step that instruction's `exec`, on the state without
the word; a line that holds such a word does the same and collects the line's text. -/
def Obligations.StepRunsTheDecodedInstruction : Prop :=
  (∀ (s : State) (h : HostWord) (ws : List HostWord) (i : Instr), s.RomOk → s.words = h :: ws →
    decode (hostWordBits h) = .instr i → step s = exec i { s with words := ws }) ∧
  (∀ (s : State) (l : Text) (ls : List Text) (i : Instr), s.RomOk → Claims.NextLine s l ls →
    lineIsWord (trim l) = true → decode (wordOfLine (trim l)) = .instr i →
    step s = collectNext (exec i { s with lines := some ls }))

/-- R90 and R91 against the machine: for every word, from every state with the tables of the spec, the
step goes on, the outputs are `decode(instr)` as the spec's pseudocode gives them, and nothing else
changes but the queue of words and the outcome. The step runs the decoder and the instruction's own
meaning; the right side is the pseudocode. -/
def Obligations.StepDrivesDecodeOfTheWord : Prop :=
  ∀ (s : State) (h : HostWord) (ws : List HostWord), s.RomOk → s.words = h :: ws →
    step s = .next { s with
      words := ws
      instr := some (hostWordBits h)
      ports := some (decodePorts s.opc s.fn s.regn (hostWordBits h))
      lastOutcome := some (Claims.statusOutcome
        (decodePorts s.opc s.fn s.regn (hostWordBits h)).status) }

/-- The invariant of the machine is kept by every step from every state that has it. -/
def Obligations.EveryStepKeepsTheInvariant : Prop :=
  ∀ s t : State, s.Inv → step s = .next t → t.Inv

/-- The machine at reset: the tables hold their contents, nothing is driven or produced, and the
invariant holds. Fourteen of the default names are the spec's own decision D8 (log entry 1), and the empty
host side is the model's choice (log entry 3): this rests on both. -/
def Obligations.ResetHoldsTablesAndInvariant : Prop :=
  State.reset.Inv ∧ State.reset.instr = none ∧ State.reset.ports = none ∧
  (∀ (r : RegIndex) (n : Text), regName State.reset.regn r = some n ↔
    (r, n) ∈ [(0#5, "$zero".toList),
      (8#5, "$t0".toList), (9#5, "$t1".toList), (10#5, "$t2".toList), (11#5, "$t3".toList),
      (12#5, "$t4".toList), (13#5, "$t5".toList), (14#5, "$t6".toList), (15#5, "$t7".toList),
      (16#5, "$s0".toList), (17#5, "$s1".toList), (18#5, "$s2".toList), (19#5, "$s3".toList),
      (20#5, "$s4".toList), (21#5, "$s5".toList), (22#5, "$s6".toList), (23#5, "$s7".toList)])

/-- R26, R93 and R99: in every state of the machine whose port is driven, the field ports are the raw
slices of the word, the format is that of its opcode, and `imm_sext` is the sign extension, whatever the
outcome. -/
def Obligations.FieldPortsAreRawSlices : Prop :=
  ∀ (s : State) (w : Word), s.Inv → s.instr = some w →
    ∃ p, s.ports = some p ∧
      p.opcode = w.extractLsb' 26 6 ∧ p.rs = w.extractLsb' 21 5 ∧ p.rt = w.extractLsb' 16 5 ∧
      p.rd = w.extractLsb' 11 5 ∧ p.shamt = w.extractLsb' 6 5 ∧ p.funct = w.extractLsb' 0 6 ∧
      p.imm16 = w.extractLsb' 0 16 ∧ p.addr26 = w.extractLsb' 0 26 ∧
      p.immSext = (w.extractLsb' 0 16).signExtend 32 ∧
      (∀ i, p.immSext.getLsbD i = (decide (i < 32) && if i < 16 then w.getLsbD i else w.getLsbD 15)) ∧
      p.immSext.toInt = sintImm (w.extractLsb' 0 16) ∧
      p.fmt = (if w.extractLsb' 26 6 = 0b000000#6 then .register
        else if w.extractLsb' 26 6 = 0b000010#6 then .jump
        else if w.extractLsb' 26 6 ∈ Claims.undefinedOpcodes then .none
        else .immediate)

/-- R211 and R87: the codes on the enumeration ports; the codes the block never drives are no code of
any value. -/
def Obligations.PortCodesAreTheSpecs : Prop :=
  statusCode .ok = 0#2 ∧ statusCode .invalidOpcode = 1#2 ∧ statusCode .invalidFunct = 2#2 ∧
  (∀ st, statusCode st ≠ 3#2) ∧
  formatCode .register = 0#2 ∧ formatCode .immediate = 1#2 ∧ formatCode .jump = 2#2 ∧
  formatCode .none = 3#2 ∧
  mnemCode none = 31#5 ∧ (∀ m, (mnemCode (some m)).toNat < 24) ∧
  rendCode none = 15#4 ∧ (∀ r, (rendCode (some r)).toNat < 8) ∧
  allMnemonics.map (fun m => (mnemonicText m, (mnemCode (some m)).toNat)) =
    [("lb".toList, 0), ("lh".toList, 1), ("lw".toList, 2), ("sb".toList, 3), ("sh".toList, 4),
     ("sw".toList, 5), ("addi".toList, 6), ("andi".toList, 7), ("ori".toList, 8),
     ("xori".toList, 9), ("liu".toList, 10), ("beq".toList, 11), ("bne".toList, 12),
     ("blez".toList, 13), ("bgtz".toList, 14), ("j".toList, 15), ("add".toList, 16),
     ("sub".toList, 17), ("and".toList, 18), ("or".toList, 19), ("xor".toList, 20),
     ("sll".toList, 21), ("srl".toList, 22), ("jr".toList, 23)]

/-- R21: the outputs for a word do not depend on anything decoded before. Two states that hold the same
tables and the same next word, and differ in anything else, give the same ports. -/
def Obligations.OutputsForgetEarlierWords : Prop :=
  ∀ (s s' : State) (h : HostWord) (ws ws' : List HostWord), s.opc = s'.opc → s.fn = s'.fn →
    s.regn = s'.regn → s.words = h :: ws → s'.words = h :: ws' →
    ∃ t t' p, step s = .next t ∧ step s' = .next t' ∧ t.ports = some p ∧ t'.ports = some p ∧
      t.instr = t'.instr

/-- Nothing writes the tables: no step changes one. -/
def Obligations.NoStepWritesTheTables : Prop :=
  ∀ s t : State, step s = .next t → t.opc = s.opc ∧ t.fn = s.fn ∧ t.regn = s.regn

/-- The frame of every instruction, named by none because it holds of all 24: it completes, its word is
on the input port, and no table and nothing on the host's side changes. -/
def Obligations.EveryInstructionLeavesTheRest : Prop :=
  ∀ (i : Instr) (s : State), ∃ t, exec i s = .next t ∧ t.instr = some (encode i) ∧
    t.opc = s.opc ∧ t.fn = s.fn ∧ t.regn = s.regn ∧ t.words = s.words ∧ t.files = s.files ∧
    t.lines = s.lines ∧ t.kept = s.kept ∧ t.outLines = s.outLines ∧ t.results = s.results

/-! ## The host boundary -/

/-- From R45 with D11, R48 and R49: opening a file splits its text at LF, starts the count of kept lines
at 0 and the output lines at none, and leaves the earlier results; the trim removes leading and trailing
characters of the whitespace set, and leaves none at either end; a raw line counts as its trimmed line
does. That a final LF leaves an empty last line, so that joining the lines gives the text back, is the
model's choice (log entry 12, DEDUCED). -/
def Obligations.LinesAreSplitAndTrimmed : Prop :=
  (∀ (s : State) (x : Text) (fs : List InputFile), s.words = [] → s.lines = none →
    s.files = .contents x :: fs →
    ∃ t, step s = .next t ∧ t.files = fs ∧ t.lines = some (splitLines x) ∧ t.kept = 0 ∧
      t.outLines = [] ∧ t.results = s.results) ∧
  (∀ x : Text, ['\n'].intercalate (splitLines x) = x ∧ ∀ l ∈ splitLines x, '\n' ∉ l) ∧
  (∀ c : Char, isWhitespace c = true ↔
    c ∈ [' ', '\t', '\n', Char.ofNat 0x0B, Char.ofNat 0x0C, '\r']) ∧
  (∀ l : Text, ∃ pre post, l = pre ++ trim l ++ post ∧
    (∀ c ∈ pre, isWhitespace c = true) ∧ (∀ c ∈ post, isWhitespace c = true) ∧
    (∀ c, (trim l).head? = some c → isWhitespace c = false) ∧
    (∀ c, (trim l).getLast? = some c → isWhitespace c = false)) ∧
  (∀ (s : State) (l : Text) (ls : List Text), Claims.NextLine s l ls →
    step s = step { s with lines := some (trim l :: ls) })

/-- R216: a line whose trimmed length is not 32 is skipped with no output and no report. -/
def Obligations.WrongLengthLineIsSkipped : Prop :=
  ∀ (s : State) (l : Text) (ls : List Text), Claims.NextLine s l ls → (trim l).length ≠ 32 →
    ∃ t, step s = .next t ∧ t.lines = some ls ∧ t.outLines = s.outLines ∧ t.kept = s.kept ∧
      t.results = s.results

/-- R47: the three branches of the line rule. -/
def Obligations.KeptLineFollowsTheLineRule : Prop :=
  ∀ (s : State) (l : Text) (ls : List Text), s.RomOk → Claims.NextLine s l ls →
    (trim l).length = 32 →
    ((trim l).take 6 ∉ Claims.opcodeStrings →
      ∃ t, step s = .next t ∧ t.outLines = s.outLines ++ ["Invalid opcode".toList]) ∧
    ((trim l).take 6 ∈ Claims.opcodeStrings → (∃ c ∈ (trim l).drop 6, Claims.NonBinary c) →
      step s = .fault (.nonBinary s.kept)) ∧
    ((trim l).take 6 ∈ Claims.opcodeStrings → (¬ ∃ c ∈ (trim l).drop 6, Claims.NonBinary c) →
      ∃ t, step s = .next t ∧ t.instr = some (BitVec.ofNat 32 (bitsValue (trim l))) ∧
        t.outLines = s.outLines ++
          [(decodePorts s.opc s.fn s.regn (BitVec.ofNat 32 (bitsValue (trim l)))).text])

/-- The bit order that 20_memory.md derives: character `i` of a line of bits is `instr[31 - i]`. -/
def Obligations.FirstCharacterIsBitThirtyOne : Prop :=
  ∀ l : Text, lineIsWord l = true → ∀ i < 32,
    l[i]? = some (if (wordOfLine l).getLsbD (31 - i) then '1' else '0')

/-- From R48: a file with no faulting line gives one output line for each kept line, in input order. That the
run takes one step for each raw line and one to close the file is the model's choice (log entry 5,
DESIGN CHOICE). -/
def Obligations.FileGivesItsLinesInOrder : Prop :=
  ∀ (s : State) (ls : List Text), s.RomOk → s.words = [] → s.lines = some ls → s.kept = 0 →
    s.outLines = [] →
    (∀ l ∈ ls, lineResult s.opc s.fn s.regn l ≠ .nonBinary) →
    (ls.filterMap (Claims.lineText s)).length = Claims.keptCount ls ∧
    ∃ t : State, Host.Core.run core (ls.length + 1) s = .next t ∧ t.lines = none ∧
      t.files = s.files ∧ t.results = s.results ++ [.lines (ls.filterMap (Claims.lineText s))]

/-- From R49: a file with a faulting line gives that fault and no output, with the index of the first such
line among the kept lines. That every longer run ends in the fault, whatever files still wait, is the
model's choice (log entry 4, DEDUCED), and so is one step for each raw line (log entry 5,
DESIGN CHOICE). -/
def Obligations.FirstNonBinaryLineFaultsTheFile : Prop :=
  ∀ (s : State) (before : List Text) (l : Text) (after : List Text), s.RomOk → s.words = [] →
    s.lines = some (before ++ l :: after) → s.kept = 0 →
    (∀ x ∈ before, lineResult s.opc s.fn s.regn x ≠ .nonBinary) →
    lineResult s.opc s.fn s.regn l = .nonBinary →
    ∀ n, before.length < n →
      Host.Core.run core n s = .fault (.nonBinary (Claims.keptCount before))

/-- R51 and R217: an unreadable file gives an empty sequence and the notice, and the host goes on with
its remaining files. -/
def Obligations.UnreadableFileGivesNoticeAndGoesOn : Prop :=
  ∀ (s : State) (fs : List InputFile), s.words = [] → s.lines = none →
    s.files = .unreadable :: fs →
    ∃ t r, step s = .next t ∧ t.results = s.results ++ [r] ∧ resultLines r = [] ∧
      resultNotice r = true ∧ t.files = fs ∧ t.lines = none

/-- From R215: the one fault, where it is raised, and that the block itself never faults. That no later
step follows it is the model's choice (log entry 4, DEDUCED), and so is that no step faults while a word
waits, because a waiting word comes before the lines (log entry 5, DESIGN CHOICE). -/
def Obligations.OnlyTheLineRuleFaults : Prop :=
  ∀ (s : State) (f : Fault), s.RomOk →
    (step s = .fault f ↔
      f = .nonBinary s.kept ∧ s.words = [] ∧
      ∃ l ls, s.lines = some (l :: ls) ∧ (trim l).length = 32 ∧
        (trim l).take 6 ∈ Claims.opcodeStrings ∧ ∃ c ∈ (trim l).drop 6, Claims.NonBinary c) ∧
    (step s = .fault f → ∀ n, 0 < n → Host.Core.run core n s = .fault f) ∧
    ∀ (w : Word) (g : Fault), runWord w s ≠ .fault g

/-- The model refuses a step exactly when the host has nothing to present; that it refuses there is the
model's choice (log entry 3). -/
def Obligations.RefusalMeansNothingToPresent : Prop :=
  ∀ (s : State) (r : Refusal), step s = .refused r ↔
    r = .inputNotDriven ∧ s.words = [] ∧ s.lines = none ∧ s.files = []

/-- R218: the order in which the conditions on a line decide its outcome. -/
def Obligations.FirstConditionDecidesTheOutcome : Prop :=
  ∀ (s : State) (l : Text) (ls : List Text), s.RomOk → Claims.NextLine s l ls →
    if (trim l).length ≠ 32 then
      ∃ t, step s = .next t ∧ t.lastOutcome = some .lineSkipped ∧ t.outLines = s.outLines
    else if (trim l).take 6 ∉ Claims.opcodeStrings then
      ∃ t, step s = .next t ∧ t.lastOutcome = some .invalidOpcode ∧
        t.outLines = s.outLines ++ ["Invalid opcode".toList]
    else if ∃ c ∈ (trim l).drop 6, Claims.NonBinary c then
      step s = .fault (.nonBinary s.kept)
    else if (trim l).take 6 = "000000".toList ∧
        functOf (wordOfLine (trim l)) ∈ Claims.undefinedFuncts then
      ∃ t p, step s = .next t ∧ t.lastOutcome = some .invalidFunct ∧ t.ports = some p ∧
        p.status = .invalidFunct ∧ p.regUnresolved = false
    else
      ∃ t p r, step s = .next t ∧ t.lastOutcome = some .ok ∧ t.ports = some p ∧ p.status = .ok ∧
        p.rend = some r ∧
        (p.regUnresolved = true ↔ ∃ f ∈ Claims.printedFields r p, regName s.regn f = none)

/-- Packed words (D17) and output framing (D12), for either value of each parameter: the byte at the
lowest address is the most or the least significant one, and a framed file splits into its lines again.
The model's choices here: which byte stands at the lowest address under each name (log entry 7, PRESUMED),
LF as the terminator and the empty text of no lines (log entry 8, DEDUCED), and the empty last line of a
terminated text (log entry 12, DEDUCED). -/
def Obligations.HostParametersAreArguments : Prop :=
  (∀ b0 b1 b2 b3 : Byte, ∀ i < 8,
    (hostWordBits (.packed .big b0 b1 b2 b3)).getLsbD (24 + i) = b0.getLsbD i ∧
    (hostWordBits (.packed .big b0 b1 b2 b3)).getLsbD (16 + i) = b1.getLsbD i ∧
    (hostWordBits (.packed .big b0 b1 b2 b3)).getLsbD (8 + i) = b2.getLsbD i ∧
    (hostWordBits (.packed .big b0 b1 b2 b3)).getLsbD i = b3.getLsbD i ∧
    (hostWordBits (.packed .little b0 b1 b2 b3)).getLsbD (24 + i) = b3.getLsbD i ∧
    (hostWordBits (.packed .little b0 b1 b2 b3)).getLsbD (16 + i) = b2.getLsbD i ∧
    (hostWordBits (.packed .little b0 b1 b2 b3)).getLsbD (8 + i) = b1.getLsbD i ∧
    (hostWordBits (.packed .little b0 b1 b2 b3)).getLsbD i = b0.getLsbD i) ∧
  (∀ ls : List Text, ls ≠ [] → (∀ l ∈ ls, '\n' ∉ l) →
    splitLines (frameLines .joined ls) = ls ∧
    splitLines (frameLines .terminated ls) = ls ++ [[]]) ∧
  (∀ f : OutputFraming, frameLines f [] = [])
end

