-- ==== Sys2Proof/Laws/Decode.lean ====
section
/-! SUPPORT. The slices of the three layouts (spec/30_encoding.md R61 to R64), a word put together again
from its slices, and the masks of spec/opcode_table.json as conditions on slices. -/

namespace Sys2Proof

/-! ## Slices of a packed word -/

section Packed
variable (op : Opcode) (rs rt rd : RegIndex) (shamt : Shamt) (fn : Funct) (imm : Imm16)
  (address : Addr26)

@[simp] theorem opcodeOf_registerWord : opcodeOf (registerWord rs rt rd shamt fn) = 0b000000#6 := by
  apply BitVec.eq_of_getLsbD_eq
  intro i hi
  simp only [opcodeOf, registerWord, BitVec.getLsbD_extractLsb', BitVec.getLsbD_append, hi, decide_true,
    Bool.true_and]
  split_ifs <;> first | omega | (congr 1; omega)

@[simp] theorem rsOf_registerWord : rsOf (registerWord rs rt rd shamt fn) = rs := by
  apply BitVec.eq_of_getLsbD_eq
  intro i hi
  simp only [rsOf, registerWord, BitVec.getLsbD_extractLsb', BitVec.getLsbD_append, hi, decide_true,
    Bool.true_and]
  split_ifs <;> first | omega | (congr 1; omega)

@[simp] theorem rtOf_registerWord : rtOf (registerWord rs rt rd shamt fn) = rt := by
  apply BitVec.eq_of_getLsbD_eq
  intro i hi
  simp only [rtOf, registerWord, BitVec.getLsbD_extractLsb', BitVec.getLsbD_append, hi, decide_true,
    Bool.true_and]
  split_ifs <;> first | omega | (congr 1; omega)

@[simp] theorem rdOf_registerWord : rdOf (registerWord rs rt rd shamt fn) = rd := by
  apply BitVec.eq_of_getLsbD_eq
  intro i hi
  simp only [rdOf, registerWord, BitVec.getLsbD_extractLsb', BitVec.getLsbD_append, hi, decide_true,
    Bool.true_and]
  split_ifs <;> first | omega | (congr 1; omega)

@[simp] theorem shamtOf_registerWord : shamtOf (registerWord rs rt rd shamt fn) = shamt := by
  apply BitVec.eq_of_getLsbD_eq
  intro i hi
  simp only [shamtOf, registerWord, BitVec.getLsbD_extractLsb', BitVec.getLsbD_append, hi, decide_true,
    Bool.true_and]
  split_ifs <;> first | omega | (congr 1; omega)

@[simp] theorem functOf_registerWord : functOf (registerWord rs rt rd shamt fn) = fn := by
  apply BitVec.eq_of_getLsbD_eq
  intro i hi
  simp only [functOf, registerWord, BitVec.getLsbD_extractLsb', BitVec.getLsbD_append, hi, decide_true,
    Bool.true_and]
  split_ifs <;> first | omega | (congr 1; omega)

@[simp] theorem immOf_registerWord : immOf (registerWord rs rt rd shamt fn) = rd ++ shamt ++ fn := by
  apply BitVec.eq_of_getLsbD_eq
  intro i hi
  simp only [immOf, registerWord, BitVec.getLsbD_extractLsb', BitVec.getLsbD_append, hi, decide_true,
    Bool.true_and]
  split_ifs <;> first | omega | (congr 1; omega)

@[simp] theorem addressOf_registerWord : addressOf (registerWord rs rt rd shamt fn) = rs ++ rt ++ rd ++ shamt ++ fn := by
  apply BitVec.eq_of_getLsbD_eq
  intro i hi
  simp only [addressOf, registerWord, BitVec.getLsbD_extractLsb', BitVec.getLsbD_append, hi, decide_true,
    Bool.true_and]
  split_ifs <;> first | omega | (congr 1; omega)

@[simp] theorem opcodeOf_immediateWord : opcodeOf (immediateWord op rs rt imm) = op := by
  apply BitVec.eq_of_getLsbD_eq
  intro i hi
  simp only [opcodeOf, immediateWord, BitVec.getLsbD_extractLsb', BitVec.getLsbD_append, hi, decide_true,
    Bool.true_and]
  split_ifs <;> first | omega | (congr 1; omega)

@[simp] theorem rsOf_immediateWord : rsOf (immediateWord op rs rt imm) = rs := by
  apply BitVec.eq_of_getLsbD_eq
  intro i hi
  simp only [rsOf, immediateWord, BitVec.getLsbD_extractLsb', BitVec.getLsbD_append, hi, decide_true,
    Bool.true_and]
  split_ifs <;> first | omega | (congr 1; omega)

@[simp] theorem rtOf_immediateWord : rtOf (immediateWord op rs rt imm) = rt := by
  apply BitVec.eq_of_getLsbD_eq
  intro i hi
  simp only [rtOf, immediateWord, BitVec.getLsbD_extractLsb', BitVec.getLsbD_append, hi, decide_true,
    Bool.true_and]
  split_ifs <;> first | omega | (congr 1; omega)

@[simp] theorem rdOf_immediateWord : rdOf (immediateWord op rs rt imm) = imm.extractLsb' 11 5 := by
  apply BitVec.eq_of_getLsbD_eq
  intro i hi
  simp only [rdOf, immediateWord, BitVec.getLsbD_extractLsb', BitVec.getLsbD_append, hi, decide_true,
    Bool.true_and]
  split_ifs <;> first | omega | simp

@[simp] theorem shamtOf_immediateWord : shamtOf (immediateWord op rs rt imm) = imm.extractLsb' 6 5 := by
  apply BitVec.eq_of_getLsbD_eq
  intro i hi
  simp only [shamtOf, immediateWord, BitVec.getLsbD_extractLsb', BitVec.getLsbD_append, hi, decide_true,
    Bool.true_and]
  split_ifs <;> first | omega | simp

@[simp] theorem functOf_immediateWord : functOf (immediateWord op rs rt imm) = imm.extractLsb' 0 6 := by
  apply BitVec.eq_of_getLsbD_eq
  intro i hi
  simp only [functOf, immediateWord, BitVec.getLsbD_extractLsb', BitVec.getLsbD_append, hi, decide_true,
    Bool.true_and]
  split_ifs <;> first | omega | simp

@[simp] theorem immOf_immediateWord : immOf (immediateWord op rs rt imm) = imm := by
  apply BitVec.eq_of_getLsbD_eq
  intro i hi
  simp only [immOf, immediateWord, BitVec.getLsbD_extractLsb', BitVec.getLsbD_append, hi, decide_true,
    Bool.true_and]
  split_ifs <;> first | omega | (congr 1; omega)

@[simp] theorem addressOf_immediateWord : addressOf (immediateWord op rs rt imm) = rs ++ rt ++ imm := by
  apply BitVec.eq_of_getLsbD_eq
  intro i hi
  simp only [addressOf, immediateWord, BitVec.getLsbD_extractLsb', BitVec.getLsbD_append, hi, decide_true,
    Bool.true_and]
  split_ifs <;> first | omega | (congr 1; omega)

@[simp] theorem opcodeOf_jumpWord : opcodeOf (jumpWord op address) = op := by
  apply BitVec.eq_of_getLsbD_eq
  intro i hi
  simp only [opcodeOf, jumpWord, BitVec.getLsbD_extractLsb', BitVec.getLsbD_append, hi, decide_true,
    Bool.true_and]
  split_ifs <;> first | omega | (congr 1; omega)

@[simp] theorem rsOf_jumpWord : rsOf (jumpWord op address) = address.extractLsb' 21 5 := by
  apply BitVec.eq_of_getLsbD_eq
  intro i hi
  simp only [rsOf, jumpWord, BitVec.getLsbD_extractLsb', BitVec.getLsbD_append, hi, decide_true,
    Bool.true_and]
  split_ifs <;> first | omega | simp

@[simp] theorem rtOf_jumpWord : rtOf (jumpWord op address) = address.extractLsb' 16 5 := by
  apply BitVec.eq_of_getLsbD_eq
  intro i hi
  simp only [rtOf, jumpWord, BitVec.getLsbD_extractLsb', BitVec.getLsbD_append, hi, decide_true,
    Bool.true_and]
  split_ifs <;> first | omega | simp

@[simp] theorem rdOf_jumpWord : rdOf (jumpWord op address) = address.extractLsb' 11 5 := by
  apply BitVec.eq_of_getLsbD_eq
  intro i hi
  simp only [rdOf, jumpWord, BitVec.getLsbD_extractLsb', BitVec.getLsbD_append, hi, decide_true,
    Bool.true_and]
  split_ifs <;> first | omega | simp

@[simp] theorem shamtOf_jumpWord : shamtOf (jumpWord op address) = address.extractLsb' 6 5 := by
  apply BitVec.eq_of_getLsbD_eq
  intro i hi
  simp only [shamtOf, jumpWord, BitVec.getLsbD_extractLsb', BitVec.getLsbD_append, hi, decide_true,
    Bool.true_and]
  split_ifs <;> first | omega | simp

@[simp] theorem functOf_jumpWord : functOf (jumpWord op address) = address.extractLsb' 0 6 := by
  apply BitVec.eq_of_getLsbD_eq
  intro i hi
  simp only [functOf, jumpWord, BitVec.getLsbD_extractLsb', BitVec.getLsbD_append, hi, decide_true,
    Bool.true_and]
  split_ifs <;> first | omega | simp

@[simp] theorem immOf_jumpWord : immOf (jumpWord op address) = address.extractLsb' 0 16 := by
  apply BitVec.eq_of_getLsbD_eq
  intro i hi
  simp only [immOf, jumpWord, BitVec.getLsbD_extractLsb', BitVec.getLsbD_append, hi, decide_true,
    Bool.true_and]
  split_ifs <;> first | omega | simp

@[simp] theorem addressOf_jumpWord : addressOf (jumpWord op address) = address := by
  apply BitVec.eq_of_getLsbD_eq
  intro i hi
  simp only [addressOf, jumpWord, BitVec.getLsbD_extractLsb', BitVec.getLsbD_append, hi, decide_true,
    Bool.true_and]
  split_ifs <;> first | omega | (congr 1; omega)

end Packed

/-! ## A word from its slices -/

/-- A word is its six register-layout slices, put together. -/
theorem word_eq_slices (w : Word) :
    w = opcodeOf w ++ rsOf w ++ rtOf w ++ rdOf w ++ shamtOf w ++ functOf w := by
  apply BitVec.eq_of_getLsbD_eq
  intro i hi
  simp only [opcodeOf, rsOf, rtOf, rdOf, shamtOf, functOf, BitVec.getLsbD_append,
    BitVec.getLsbD_extractLsb']
  split_ifs <;> (rw [decide_eq_true (by omega), Bool.true_and]; congr 1; omega)

/-- A word with opcode `000000` is the register layout of its slices. -/
theorem registerWord_slices (w : Word) (h : opcodeOf w = 0b000000#6) :
    registerWord (rsOf w) (rtOf w) (rdOf w) (shamtOf w) (functOf w) = w := by
  conv_rhs => rw [word_eq_slices w, h]
  rfl

/-- A word is the immediate layout of its slices. -/
theorem immediateWord_slices (w : Word) :
    immediateWord (opcodeOf w) (rsOf w) (rtOf w) (immOf w) = w := by
  apply BitVec.eq_of_getLsbD_eq
  intro i hi
  simp only [immediateWord, opcodeOf, rsOf, rtOf, immOf, BitVec.getLsbD_append,
    BitVec.getLsbD_extractLsb']
  split_ifs <;> (rw [decide_eq_true (by omega), Bool.true_and]; congr 1; omega)

/-- A word is the jump layout of its slices. -/
theorem jumpWord_slices (w : Word) : jumpWord (opcodeOf w) (addressOf w) = w := by
  apply BitVec.eq_of_getLsbD_eq
  intro i hi
  simp only [jumpWord, opcodeOf, addressOf, BitVec.getLsbD_append, BitVec.getLsbD_extractLsb']
  split_ifs <;> (rw [decide_eq_true (by omega), Bool.true_and]; congr 1; omega)

/-! ## The masks of the opcode table -/

/-- The mask `0xFC000000` keeps the opcode alone. -/
theorem and_opcodeMask (w : Word) : w &&& 0xFC000000#32 = jumpWord (opcodeOf w) 0#26 := by
  have hm : (0xFC000000#32 : Word) = jumpWord 0b111111#6 0#26 := by decide
  conv_lhs => rw [hm, ← jumpWord_slices w]
  apply BitVec.eq_of_getLsbD_eq
  intro i hi
  have h6 : ∀ k, (0b111111#6).getLsbD k = decide (k < 6) := by
    intro k
    by_cases hk : k < 6
    · interval_cases k <;> rfl
    · simp [hk, BitVec.getLsbD_of_ge (0b111111#6) k (by omega)]
  simp only [jumpWord, BitVec.getLsbD_and, BitVec.getLsbD_append, h6]
  split_ifs <;> simp
  omega

/-- The mask `0xFC00003F` keeps the opcode and the function code. -/
theorem and_registerMask (w : Word) :
    w &&& 0xFC00003F#32 = opcodeOf w ++ (0#20 : BitVec 20) ++ functOf w := by
  have hm : (0xFC00003F#32 : Word) = 0b111111#6 ++ (0#20 : BitVec 20) ++ 0b111111#6 := by decide
  have h6 : ∀ k, (0b111111#6).getLsbD k = decide (k < 6) := by
    intro k
    by_cases hk : k < 6
    · interval_cases k <;> rfl
    · simp [hk, BitVec.getLsbD_of_ge (0b111111#6) k (by omega)]
  rw [hm]
  apply BitVec.eq_of_getLsbD_eq
  intro i hi
  simp only [opcodeOf, functOf, BitVec.getLsbD_and, BitVec.getLsbD_append, h6,
    BitVec.getLsbD_extractLsb']
  split_ifs with h1 h2
  · simp [h1]
  · simp
  · rw [Bool.and_comm]
    congr 2
    omega

/-- A word matches a row of an opcode-selected instruction exactly when it has the row's opcode. -/
theorem and_opcodeMask_eq_iff (w : Word) (op : Opcode) :
    w &&& 0xFC000000#32 = jumpWord op 0#26 ↔ opcodeOf w = op := by
  rw [and_opcodeMask]
  refine ⟨fun h => ?_, fun h => by rw [h]⟩
  have := congrArg opcodeOf h
  simpa using this

/-- The outer parts of a word put together in three are its own. -/
theorem append_outer_inj {a a' b b' : BitVec 6} {z : BitVec 20} (h : a ++ z ++ b = a' ++ z ++ b') :
    a = a' ∧ b = b' := by
  constructor
  · apply BitVec.eq_of_getLsbD_eq
    intro i hi
    have := congrArg (BitVec.getLsbD · (26 + i)) h
    simp only [BitVec.getLsbD_append] at this
    simpa [show ¬ 26 + i < 6 by omega, show ¬ 26 + i - 6 < 20 by omega,
      show 26 + i - 6 - 20 = i by omega] using this
  · apply BitVec.eq_of_getLsbD_eq
    intro i hi
    have := congrArg (BitVec.getLsbD · i) h
    simpa only [BitVec.getLsbD_append, hi, if_true] using this

/-- A word matches a row of a register instruction exactly when it has the row's opcode and function
code. -/
theorem and_registerMask_eq_iff (w : Word) (op : Opcode) (fn : Funct) :
    w &&& 0xFC00003F#32 = op ++ (0#20 : BitVec 20) ++ fn ↔ opcodeOf w = op ∧ functOf w = fn := by
  rw [and_registerMask]
  exact ⟨append_outer_inj, fun h => by rw [h.1, h.2]⟩

end Sys2Proof
end

