-- ==== Sys2Proof/Laws/State.lean ====
section
/-! SUPPORT. One lemma per field per state operation, each true by `rfl`. -/

namespace Sys2Proof.Machine

variable (s : State)

@[simp] theorem State.drive_opc (w : Word) (f : Format) (m : Mnemonic) (r : Renderer) :
    (s.drive w f m r).opc = s.opc := rfl
@[simp] theorem State.drive_fn (w : Word) (f : Format) (m : Mnemonic) (r : Renderer) :
    (s.drive w f m r).fn = s.fn := rfl
@[simp] theorem State.drive_regn (w : Word) (f : Format) (m : Mnemonic) (r : Renderer) :
    (s.drive w f m r).regn = s.regn := rfl
@[simp] theorem State.drive_instr (w : Word) (f : Format) (m : Mnemonic) (r : Renderer) :
    (s.drive w f m r).instr = some w := rfl
@[simp] theorem State.drive_ports (w : Word) (f : Format) (m : Mnemonic) (r : Renderer) :
    (s.drive w f m r).ports = some (okPorts s.regn w f m r) := rfl
@[simp] theorem State.drive_words (w : Word) (f : Format) (m : Mnemonic) (r : Renderer) :
    (s.drive w f m r).words = s.words := rfl
@[simp] theorem State.drive_files (w : Word) (f : Format) (m : Mnemonic) (r : Renderer) :
    (s.drive w f m r).files = s.files := rfl
@[simp] theorem State.drive_lines (w : Word) (f : Format) (m : Mnemonic) (r : Renderer) :
    (s.drive w f m r).lines = s.lines := rfl
@[simp] theorem State.drive_kept (w : Word) (f : Format) (m : Mnemonic) (r : Renderer) :
    (s.drive w f m r).kept = s.kept := rfl
@[simp] theorem State.drive_outLines (w : Word) (f : Format) (m : Mnemonic) (r : Renderer) :
    (s.drive w f m r).outLines = s.outLines := rfl
@[simp] theorem State.drive_results (w : Word) (f : Format) (m : Mnemonic) (r : Renderer) :
    (s.drive w f m r).results = s.results := rfl
@[simp] theorem State.drive_lastOutcome (w : Word) (f : Format) (m : Mnemonic) (r : Renderer) :
    (s.drive w f m r).lastOutcome = some .ok := rfl

@[simp] theorem State.driveInvalidOpcode_opc (w : Word) :
    (s.driveInvalidOpcode w).opc = s.opc := rfl
@[simp] theorem State.driveInvalidOpcode_fn (w : Word) :
    (s.driveInvalidOpcode w).fn = s.fn := rfl
@[simp] theorem State.driveInvalidOpcode_regn (w : Word) :
    (s.driveInvalidOpcode w).regn = s.regn := rfl
@[simp] theorem State.driveInvalidOpcode_instr (w : Word) :
    (s.driveInvalidOpcode w).instr = some w := rfl
@[simp] theorem State.driveInvalidOpcode_ports (w : Word) :
    (s.driveInvalidOpcode w).ports = some (invalidPorts w .none .invalidOpcode) := rfl
@[simp] theorem State.driveInvalidOpcode_words (w : Word) :
    (s.driveInvalidOpcode w).words = s.words := rfl
@[simp] theorem State.driveInvalidOpcode_files (w : Word) :
    (s.driveInvalidOpcode w).files = s.files := rfl
@[simp] theorem State.driveInvalidOpcode_lines (w : Word) :
    (s.driveInvalidOpcode w).lines = s.lines := rfl
@[simp] theorem State.driveInvalidOpcode_kept (w : Word) :
    (s.driveInvalidOpcode w).kept = s.kept := rfl
@[simp] theorem State.driveInvalidOpcode_outLines (w : Word) :
    (s.driveInvalidOpcode w).outLines = s.outLines := rfl
@[simp] theorem State.driveInvalidOpcode_results (w : Word) :
    (s.driveInvalidOpcode w).results = s.results := rfl
@[simp] theorem State.driveInvalidOpcode_lastOutcome (w : Word) :
    (s.driveInvalidOpcode w).lastOutcome = some .invalidOpcode := rfl

@[simp] theorem State.driveInvalidFunct_opc (w : Word) :
    (s.driveInvalidFunct w).opc = s.opc := rfl
@[simp] theorem State.driveInvalidFunct_fn (w : Word) :
    (s.driveInvalidFunct w).fn = s.fn := rfl
@[simp] theorem State.driveInvalidFunct_regn (w : Word) :
    (s.driveInvalidFunct w).regn = s.regn := rfl
@[simp] theorem State.driveInvalidFunct_instr (w : Word) :
    (s.driveInvalidFunct w).instr = some w := rfl
@[simp] theorem State.driveInvalidFunct_ports (w : Word) :
    (s.driveInvalidFunct w).ports = some (invalidPorts w .register .invalidFunct) := rfl
@[simp] theorem State.driveInvalidFunct_words (w : Word) :
    (s.driveInvalidFunct w).words = s.words := rfl
@[simp] theorem State.driveInvalidFunct_files (w : Word) :
    (s.driveInvalidFunct w).files = s.files := rfl
@[simp] theorem State.driveInvalidFunct_lines (w : Word) :
    (s.driveInvalidFunct w).lines = s.lines := rfl
@[simp] theorem State.driveInvalidFunct_kept (w : Word) :
    (s.driveInvalidFunct w).kept = s.kept := rfl
@[simp] theorem State.driveInvalidFunct_outLines (w : Word) :
    (s.driveInvalidFunct w).outLines = s.outLines := rfl
@[simp] theorem State.driveInvalidFunct_results (w : Word) :
    (s.driveInvalidFunct w).results = s.results := rfl
@[simp] theorem State.driveInvalidFunct_lastOutcome (w : Word) :
    (s.driveInvalidFunct w).lastOutcome = some .invalidFunct := rfl

@[simp] theorem State.undrive_opc (o : Option DecodeOutcome) :
    (s.undrive o).opc = s.opc := rfl
@[simp] theorem State.undrive_fn (o : Option DecodeOutcome) :
    (s.undrive o).fn = s.fn := rfl
@[simp] theorem State.undrive_regn (o : Option DecodeOutcome) :
    (s.undrive o).regn = s.regn := rfl
@[simp] theorem State.undrive_instr (o : Option DecodeOutcome) :
    (s.undrive o).instr = none := rfl
@[simp] theorem State.undrive_ports (o : Option DecodeOutcome) :
    (s.undrive o).ports = none := rfl
@[simp] theorem State.undrive_words (o : Option DecodeOutcome) :
    (s.undrive o).words = s.words := rfl
@[simp] theorem State.undrive_files (o : Option DecodeOutcome) :
    (s.undrive o).files = s.files := rfl
@[simp] theorem State.undrive_lines (o : Option DecodeOutcome) :
    (s.undrive o).lines = s.lines := rfl
@[simp] theorem State.undrive_kept (o : Option DecodeOutcome) :
    (s.undrive o).kept = s.kept := rfl
@[simp] theorem State.undrive_outLines (o : Option DecodeOutcome) :
    (s.undrive o).outLines = s.outLines := rfl
@[simp] theorem State.undrive_results (o : Option DecodeOutcome) :
    (s.undrive o).results = s.results := rfl
@[simp] theorem State.undrive_lastOutcome (o : Option DecodeOutcome) :
    (s.undrive o).lastOutcome = o := rfl

@[simp] theorem State.collect_opc (t : Text) :
    (s.collect t).opc = s.opc := rfl
@[simp] theorem State.collect_fn (t : Text) :
    (s.collect t).fn = s.fn := rfl
@[simp] theorem State.collect_regn (t : Text) :
    (s.collect t).regn = s.regn := rfl
@[simp] theorem State.collect_instr (t : Text) :
    (s.collect t).instr = s.instr := rfl
@[simp] theorem State.collect_ports (t : Text) :
    (s.collect t).ports = s.ports := rfl
@[simp] theorem State.collect_words (t : Text) :
    (s.collect t).words = s.words := rfl
@[simp] theorem State.collect_files (t : Text) :
    (s.collect t).files = s.files := rfl
@[simp] theorem State.collect_lines (t : Text) :
    (s.collect t).lines = s.lines := rfl
@[simp] theorem State.collect_kept (t : Text) :
    (s.collect t).kept = s.kept + 1 := rfl
@[simp] theorem State.collect_outLines (t : Text) :
    (s.collect t).outLines = s.outLines ++ [t] := rfl
@[simp] theorem State.collect_results (t : Text) :
    (s.collect t).results = s.results := rfl
@[simp] theorem State.collect_lastOutcome (t : Text) :
    (s.collect t).lastOutcome = s.lastOutcome := rfl

@[simp] theorem State.skipLine_opc :
    s.skipLine.opc = s.opc := rfl
@[simp] theorem State.skipLine_fn :
    s.skipLine.fn = s.fn := rfl
@[simp] theorem State.skipLine_regn :
    s.skipLine.regn = s.regn := rfl
@[simp] theorem State.skipLine_instr :
    s.skipLine.instr = none := rfl
@[simp] theorem State.skipLine_ports :
    s.skipLine.ports = none := rfl
@[simp] theorem State.skipLine_words :
    s.skipLine.words = s.words := rfl
@[simp] theorem State.skipLine_files :
    s.skipLine.files = s.files := rfl
@[simp] theorem State.skipLine_lines :
    s.skipLine.lines = s.lines := rfl
@[simp] theorem State.skipLine_kept :
    s.skipLine.kept = s.kept := rfl
@[simp] theorem State.skipLine_outLines :
    s.skipLine.outLines = s.outLines := rfl
@[simp] theorem State.skipLine_results :
    s.skipLine.results = s.results := rfl
@[simp] theorem State.skipLine_lastOutcome :
    s.skipLine.lastOutcome = some .lineSkipped := rfl

@[simp] theorem State.invalidLine_opc :
    s.invalidLine.opc = s.opc := rfl
@[simp] theorem State.invalidLine_fn :
    s.invalidLine.fn = s.fn := rfl
@[simp] theorem State.invalidLine_regn :
    s.invalidLine.regn = s.regn := rfl
@[simp] theorem State.invalidLine_instr :
    s.invalidLine.instr = none := rfl
@[simp] theorem State.invalidLine_ports :
    s.invalidLine.ports = none := rfl
@[simp] theorem State.invalidLine_words :
    s.invalidLine.words = s.words := rfl
@[simp] theorem State.invalidLine_files :
    s.invalidLine.files = s.files := rfl
@[simp] theorem State.invalidLine_lines :
    s.invalidLine.lines = s.lines := rfl
@[simp] theorem State.invalidLine_kept :
    s.invalidLine.kept = s.kept + 1 := rfl
@[simp] theorem State.invalidLine_outLines :
    s.invalidLine.outLines = s.outLines ++ [invalidText] := rfl
@[simp] theorem State.invalidLine_results :
    s.invalidLine.results = s.results := rfl
@[simp] theorem State.invalidLine_lastOutcome :
    s.invalidLine.lastOutcome = some .invalidOpcode := rfl

@[simp] theorem State.closeFile_opc :
    s.closeFile.opc = s.opc := rfl
@[simp] theorem State.closeFile_fn :
    s.closeFile.fn = s.fn := rfl
@[simp] theorem State.closeFile_regn :
    s.closeFile.regn = s.regn := rfl
@[simp] theorem State.closeFile_instr :
    s.closeFile.instr = none := rfl
@[simp] theorem State.closeFile_ports :
    s.closeFile.ports = none := rfl
@[simp] theorem State.closeFile_words :
    s.closeFile.words = s.words := rfl
@[simp] theorem State.closeFile_files :
    s.closeFile.files = s.files := rfl
@[simp] theorem State.closeFile_lines :
    s.closeFile.lines = none := rfl
@[simp] theorem State.closeFile_kept :
    s.closeFile.kept = 0 := rfl
@[simp] theorem State.closeFile_outLines :
    s.closeFile.outLines = [] := rfl
@[simp] theorem State.closeFile_results :
    s.closeFile.results = s.results ++ [.lines s.outLines] := rfl
@[simp] theorem State.closeFile_lastOutcome :
    s.closeFile.lastOutcome = none := rfl

@[simp] theorem State.withFetchWord_opc (nbits w : Nat) :
    (s.withFetchWord nbits w).opc = s.opc := rfl
@[simp] theorem State.withFetchWord_fn (nbits w : Nat) :
    (s.withFetchWord nbits w).fn = s.fn := rfl
@[simp] theorem State.withFetchWord_regn (nbits w : Nat) :
    (s.withFetchWord nbits w).regn = s.regn := rfl
@[simp] theorem State.withFetchWord_instr (nbits w : Nat) :
    (s.withFetchWord nbits w).instr = s.instr := rfl
@[simp] theorem State.withFetchWord_ports (nbits w : Nat) :
    (s.withFetchWord nbits w).ports = s.ports := rfl
@[simp] theorem State.withFetchWord_words (nbits w : Nat) :
    (s.withFetchWord nbits w).words = .driven (BitVec.ofNat 32 (w % 2 ^ nbits)) :: s.words := rfl
@[simp] theorem State.withFetchWord_files (nbits w : Nat) :
    (s.withFetchWord nbits w).files = s.files := rfl
@[simp] theorem State.withFetchWord_lines (nbits w : Nat) :
    (s.withFetchWord nbits w).lines = s.lines := rfl
@[simp] theorem State.withFetchWord_kept (nbits w : Nat) :
    (s.withFetchWord nbits w).kept = s.kept := rfl
@[simp] theorem State.withFetchWord_outLines (nbits w : Nat) :
    (s.withFetchWord nbits w).outLines = s.outLines := rfl
@[simp] theorem State.withFetchWord_results (nbits w : Nat) :
    (s.withFetchWord nbits w).results = s.results := rfl
@[simp] theorem State.withFetchWord_lastOutcome (nbits w : Nat) :
    (s.withFetchWord nbits w).lastOutcome = s.lastOutcome := rfl

@[simp] theorem State.openFile_unreadable_opc :
    (s.openFile .unreadable).opc = s.opc := rfl
@[simp] theorem State.openFile_unreadable_fn :
    (s.openFile .unreadable).fn = s.fn := rfl
@[simp] theorem State.openFile_unreadable_regn :
    (s.openFile .unreadable).regn = s.regn := rfl
@[simp] theorem State.openFile_unreadable_instr :
    (s.openFile .unreadable).instr = none := rfl
@[simp] theorem State.openFile_unreadable_ports :
    (s.openFile .unreadable).ports = none := rfl
@[simp] theorem State.openFile_unreadable_words :
    (s.openFile .unreadable).words = s.words := rfl
@[simp] theorem State.openFile_unreadable_files :
    (s.openFile .unreadable).files = s.files := rfl
@[simp] theorem State.openFile_unreadable_lines :
    (s.openFile .unreadable).lines = s.lines := rfl
@[simp] theorem State.openFile_unreadable_kept :
    (s.openFile .unreadable).kept = s.kept := rfl
@[simp] theorem State.openFile_unreadable_outLines :
    (s.openFile .unreadable).outLines = s.outLines := rfl
@[simp] theorem State.openFile_unreadable_results :
    (s.openFile .unreadable).results = s.results ++ [.unreadable] := rfl
@[simp] theorem State.openFile_unreadable_lastOutcome :
    (s.openFile .unreadable).lastOutcome = some .fileUnreadable := rfl

@[simp] theorem State.openFile_contents_opc (x : Text) :
    (s.openFile (.contents x)).opc = s.opc := rfl
@[simp] theorem State.openFile_contents_fn (x : Text) :
    (s.openFile (.contents x)).fn = s.fn := rfl
@[simp] theorem State.openFile_contents_regn (x : Text) :
    (s.openFile (.contents x)).regn = s.regn := rfl
@[simp] theorem State.openFile_contents_instr (x : Text) :
    (s.openFile (.contents x)).instr = none := rfl
@[simp] theorem State.openFile_contents_ports (x : Text) :
    (s.openFile (.contents x)).ports = none := rfl
@[simp] theorem State.openFile_contents_words (x : Text) :
    (s.openFile (.contents x)).words = s.words := rfl
@[simp] theorem State.openFile_contents_files (x : Text) :
    (s.openFile (.contents x)).files = s.files := rfl
@[simp] theorem State.openFile_contents_lines (x : Text) :
    (s.openFile (.contents x)).lines = some (splitLines x) := rfl
@[simp] theorem State.openFile_contents_kept (x : Text) :
    (s.openFile (.contents x)).kept = 0 := rfl
@[simp] theorem State.openFile_contents_outLines (x : Text) :
    (s.openFile (.contents x)).outLines = [] := rfl
@[simp] theorem State.openFile_contents_results (x : Text) :
    (s.openFile (.contents x)).results = s.results := rfl
@[simp] theorem State.openFile_contents_lastOutcome (x : Text) :
    (s.openFile (.contents x)).lastOutcome = none := rfl

end Sys2Proof.Machine
end

