-- ==== Sys2Proof/Laws/Ops.lean ====
section
/-! SUPPORT. What each shared operation can do, said once: the meanings, a word on the port, a line, and
one step. -/

namespace Sys2Proof.Machine

/-- Every instruction drives its own word, and nothing else happens. -/
theorem exec_drives (i : Instr) (s : State) :
    ∃ f m r, exec i s = .next (s.drive (encode i) f m r) := by
  cases i <;> exact ⟨_, _, _, rfl⟩

/-- A word on the port goes on in one of three ways. -/
theorem runWord_cases (w : Word) (s : State) :
    (∃ i f m r, decodeWith s.opc s.fn w = .instr i ∧ runWord w s = .next (s.drive (encode i) f m r)) ∨
    (decodeWith s.opc s.fn w = .invalidOpcode ∧ runWord w s = .next (s.driveInvalidOpcode w)) ∨
    (decodeWith s.opc s.fn w = .invalidFunct ∧ runWord w s = .next (s.driveInvalidFunct w)) := by
  cases h : decodeWith s.opc s.fn w with
  | instr i =>
    obtain ⟨f, m, r, he⟩ := exec_drives i s
    exact .inl ⟨i, f, m, r, rfl, by simp [runWord, h, he]⟩
  | invalidOpcode => exact .inr (.inl ⟨rfl, by simp [runWord, h]⟩)
  | invalidFunct => exact .inr (.inr ⟨rfl, by simp [runWord, h]⟩)

/-- A word on the port always gives a next state, with some ports, and changes the port fields alone. -/
theorem runWord_next (w : Word) (s : State) :
    ∃ v p o, runWord w s =
      .next { s with instr := some v, ports := some p, lastOutcome := some o } := by
  obtain ⟨i, f, m, r, -, h⟩ | ⟨-, h⟩ | ⟨-, h⟩ := runWord_cases w s <;> exact ⟨_, _, _, h⟩

/-- The text of the ports is what the host collects. -/
theorem State.collectText_of_ports {s : State} {p : Ports} (h : s.ports = some p) :
    s.collectText = s.collect p.text := by
  simp [State.collectText, h]

/-- A raw line goes on as skipped, as an invalid line or as a word, or it faults. -/
theorem runLine_cases (raw : Text) (s : State) :
    (classifyLine s.opc raw = .skipped ∧ runLine raw s = .next s.skipLine) ∨
    (classifyLine s.opc raw = .invalidOpcode ∧ runLine raw s = .next s.invalidLine) ∨
    (classifyLine s.opc raw = .nonBinary ∧ runLine raw s = .fault (.nonBinary s.kept)) ∨
    (∃ w t, classifyLine s.opc raw = .word w ∧ runWord w s = .next t ∧
      runLine raw s = .next t.collectText) := by
  cases h : classifyLine s.opc raw with
  | skipped => exact .inl ⟨rfl, by simp [runLine, h]⟩
  | invalidOpcode => exact .inr (.inl ⟨rfl, by simp [runLine, h]⟩)
  | nonBinary => exact .inr (.inr (.inl ⟨rfl, by simp [runLine, h]⟩))
  | word w =>
    obtain ⟨v, p, o, hw⟩ := runWord_next w s
    exact .inr (.inr (.inr ⟨w, _, rfl, hw, by simp [runLine, h, hw, collectNext]⟩))

/-- A step on a word driven directly. -/
theorem step_word {s : State} {h : HostWord} {ws : List HostWord} (hw : s.words = h :: ws) :
    step s = runWord (hostWordBits h) { s with words := ws } := by
  simp [step, runItem, hw]

/-- A step on the next line of the open file. -/
theorem step_line {s : State} {l : Text} {ls : List Text} (hw : s.words = [])
    (hl : s.lines = some (l :: ls)) : step s = runLine l { s with lines := some ls } := by
  simp [step, runItem, runFile, hw, hl]

/-- A step at the end of the open file. -/
theorem step_close {s : State} (hw : s.words = []) (hl : s.lines = some []) :
    step s = .next s.closeFile := by
  simp [step, runItem, runFile, hw, hl]

/-- A step on the next input file. -/
theorem step_open {s : State} {f : InputFile} {fs : List InputFile} (hw : s.words = [])
    (hl : s.lines = none) (hf : s.files = f :: fs) :
    step s = .next (State.openFile { s with files := fs } f) := by
  simp [step, runItem, runFile, hw, hl, hf]

/-- A step with nothing presented. -/
theorem step_idle {s : State} (hw : s.words = []) (hl : s.lines = none) (hf : s.files = []) :
    step s = .refused .inputNotDriven := by
  simp [step, runItem, runFile, hw, hl, hf]

/-- The five items a step can meet. -/
theorem item_cases (s : State) :
    (∃ h ws, s.words = h :: ws) ∨
    (s.words = [] ∧ ∃ l ls, s.lines = some (l :: ls)) ∨
    (s.words = [] ∧ s.lines = some []) ∨
    (s.words = [] ∧ s.lines = none ∧ ∃ f fs, s.files = f :: fs) ∨
    (s.words = [] ∧ s.lines = none ∧ s.files = []) := by
  cases hw : s.words with
  | cons h ws => simp
  | nil =>
    cases hl : s.lines with
    | none => cases hf : s.files <;> simp
    | some ls => cases ls <;> simp

end Sys2Proof.Machine
end

