-- ==== Sys2Proof/Laws/PerInstr.lean ====
section
/-! SUPPORT. Statements about every instruction as syntax, one lemma per constructor. RowMatch: the word
of an instruction is matched by its own row of spec/opcode_table.json. -/

/-- The encoded word, under its row's mask, is the row's match. -/
def Sys2Proof.Laws.RowMatch.Statement (i : Sys2Proof.Instr) : Prop :=
  Sys2Proof.encode i &&& Sys2Proof.rowMask (Sys2Proof.mnemonicOf i) =
    Sys2Proof.rowMatch (Sys2Proof.mnemonicOf i)

/-- A register word under the register mask. -/
theorem Sys2Proof.Laws.registerWord_rowMask (rs rt rd : Sys2Proof.RegIndex) (shamt : Sys2Proof.Shamt)
    (fn : Sys2Proof.Funct) :
    Sys2Proof.registerWord rs rt rd shamt fn &&& 0xFC00003F#32 = 0#6 ++ (0#20 : BitVec 20) ++ fn := by
  rw [Sys2Proof.and_registerMask]
  simp

/-- An immediate word under the opcode mask. -/
theorem Sys2Proof.Laws.immediateWord_rowMask (op : Sys2Proof.Opcode) (rs rt : Sys2Proof.RegIndex)
    (imm : Sys2Proof.Imm16) :
    Sys2Proof.immediateWord op rs rt imm &&& 0xFC000000#32 = Sys2Proof.jumpWord op 0#26 := by
  rw [Sys2Proof.and_opcodeMask]
  simp

/-- A jump word under the opcode mask. -/
theorem Sys2Proof.Laws.jumpWord_rowMask (op : Sys2Proof.Opcode) (address : Sys2Proof.Addr26) :
    Sys2Proof.jumpWord op address &&& 0xFC000000#32 = Sys2Proof.jumpWord op 0#26 := by
  rw [Sys2Proof.and_opcodeMask]
  simp

theorem Sys2Proof.Laws.RowMatch.add (rs rt rd : Sys2Proof.RegIndex) (shamt : Sys2Proof.Shamt) :
    Sys2Proof.Laws.RowMatch.Statement (.add rs rt rd shamt) :=
  (Sys2Proof.Laws.registerWord_rowMask rs rt rd shamt _).trans rfl

theorem Sys2Proof.Laws.RowMatch.sub (rs rt rd : Sys2Proof.RegIndex) (shamt : Sys2Proof.Shamt) :
    Sys2Proof.Laws.RowMatch.Statement (.sub rs rt rd shamt) :=
  (Sys2Proof.Laws.registerWord_rowMask rs rt rd shamt _).trans rfl

theorem Sys2Proof.Laws.RowMatch.and (rs rt rd : Sys2Proof.RegIndex) (shamt : Sys2Proof.Shamt) :
    Sys2Proof.Laws.RowMatch.Statement (.and rs rt rd shamt) :=
  (Sys2Proof.Laws.registerWord_rowMask rs rt rd shamt _).trans rfl

theorem Sys2Proof.Laws.RowMatch.or (rs rt rd : Sys2Proof.RegIndex) (shamt : Sys2Proof.Shamt) :
    Sys2Proof.Laws.RowMatch.Statement (.or rs rt rd shamt) :=
  (Sys2Proof.Laws.registerWord_rowMask rs rt rd shamt _).trans rfl

theorem Sys2Proof.Laws.RowMatch.xor (rs rt rd : Sys2Proof.RegIndex) (shamt : Sys2Proof.Shamt) :
    Sys2Proof.Laws.RowMatch.Statement (.xor rs rt rd shamt) :=
  (Sys2Proof.Laws.registerWord_rowMask rs rt rd shamt _).trans rfl

theorem Sys2Proof.Laws.RowMatch.sll (rs rt rd : Sys2Proof.RegIndex) (shamt : Sys2Proof.Shamt) :
    Sys2Proof.Laws.RowMatch.Statement (.sll rs rt rd shamt) :=
  (Sys2Proof.Laws.registerWord_rowMask rs rt rd shamt _).trans rfl

theorem Sys2Proof.Laws.RowMatch.srl (rs rt rd : Sys2Proof.RegIndex) (shamt : Sys2Proof.Shamt) :
    Sys2Proof.Laws.RowMatch.Statement (.srl rs rt rd shamt) :=
  (Sys2Proof.Laws.registerWord_rowMask rs rt rd shamt _).trans rfl

theorem Sys2Proof.Laws.RowMatch.jr (rs rt rd : Sys2Proof.RegIndex) (shamt : Sys2Proof.Shamt) :
    Sys2Proof.Laws.RowMatch.Statement (.jr rs rt rd shamt) :=
  (Sys2Proof.Laws.registerWord_rowMask rs rt rd shamt _).trans rfl

theorem Sys2Proof.Laws.RowMatch.lb (rs rt : Sys2Proof.RegIndex) (imm : Sys2Proof.Imm16) :
    Sys2Proof.Laws.RowMatch.Statement (.lb rs rt imm) :=
  (Sys2Proof.Laws.immediateWord_rowMask _ rs rt imm).trans rfl

theorem Sys2Proof.Laws.RowMatch.lh (rs rt : Sys2Proof.RegIndex) (imm : Sys2Proof.Imm16) :
    Sys2Proof.Laws.RowMatch.Statement (.lh rs rt imm) :=
  (Sys2Proof.Laws.immediateWord_rowMask _ rs rt imm).trans rfl

theorem Sys2Proof.Laws.RowMatch.lw (rs rt : Sys2Proof.RegIndex) (imm : Sys2Proof.Imm16) :
    Sys2Proof.Laws.RowMatch.Statement (.lw rs rt imm) :=
  (Sys2Proof.Laws.immediateWord_rowMask _ rs rt imm).trans rfl

theorem Sys2Proof.Laws.RowMatch.sb (rs rt : Sys2Proof.RegIndex) (imm : Sys2Proof.Imm16) :
    Sys2Proof.Laws.RowMatch.Statement (.sb rs rt imm) :=
  (Sys2Proof.Laws.immediateWord_rowMask _ rs rt imm).trans rfl

theorem Sys2Proof.Laws.RowMatch.sh (rs rt : Sys2Proof.RegIndex) (imm : Sys2Proof.Imm16) :
    Sys2Proof.Laws.RowMatch.Statement (.sh rs rt imm) :=
  (Sys2Proof.Laws.immediateWord_rowMask _ rs rt imm).trans rfl

theorem Sys2Proof.Laws.RowMatch.sw (rs rt : Sys2Proof.RegIndex) (imm : Sys2Proof.Imm16) :
    Sys2Proof.Laws.RowMatch.Statement (.sw rs rt imm) :=
  (Sys2Proof.Laws.immediateWord_rowMask _ rs rt imm).trans rfl

theorem Sys2Proof.Laws.RowMatch.addi (rs rt : Sys2Proof.RegIndex) (imm : Sys2Proof.Imm16) :
    Sys2Proof.Laws.RowMatch.Statement (.addi rs rt imm) :=
  (Sys2Proof.Laws.immediateWord_rowMask _ rs rt imm).trans rfl

theorem Sys2Proof.Laws.RowMatch.andi (rs rt : Sys2Proof.RegIndex) (imm : Sys2Proof.Imm16) :
    Sys2Proof.Laws.RowMatch.Statement (.andi rs rt imm) :=
  (Sys2Proof.Laws.immediateWord_rowMask _ rs rt imm).trans rfl

theorem Sys2Proof.Laws.RowMatch.ori (rs rt : Sys2Proof.RegIndex) (imm : Sys2Proof.Imm16) :
    Sys2Proof.Laws.RowMatch.Statement (.ori rs rt imm) :=
  (Sys2Proof.Laws.immediateWord_rowMask _ rs rt imm).trans rfl

theorem Sys2Proof.Laws.RowMatch.xori (rs rt : Sys2Proof.RegIndex) (imm : Sys2Proof.Imm16) :
    Sys2Proof.Laws.RowMatch.Statement (.xori rs rt imm) :=
  (Sys2Proof.Laws.immediateWord_rowMask _ rs rt imm).trans rfl

theorem Sys2Proof.Laws.RowMatch.liu (rs rt : Sys2Proof.RegIndex) (imm : Sys2Proof.Imm16) :
    Sys2Proof.Laws.RowMatch.Statement (.liu rs rt imm) :=
  (Sys2Proof.Laws.immediateWord_rowMask _ rs rt imm).trans rfl

theorem Sys2Proof.Laws.RowMatch.beq (rs rt : Sys2Proof.RegIndex) (imm : Sys2Proof.Imm16) :
    Sys2Proof.Laws.RowMatch.Statement (.beq rs rt imm) :=
  (Sys2Proof.Laws.immediateWord_rowMask _ rs rt imm).trans rfl

theorem Sys2Proof.Laws.RowMatch.bne (rs rt : Sys2Proof.RegIndex) (imm : Sys2Proof.Imm16) :
    Sys2Proof.Laws.RowMatch.Statement (.bne rs rt imm) :=
  (Sys2Proof.Laws.immediateWord_rowMask _ rs rt imm).trans rfl

theorem Sys2Proof.Laws.RowMatch.blez (rs rt : Sys2Proof.RegIndex) (imm : Sys2Proof.Imm16) :
    Sys2Proof.Laws.RowMatch.Statement (.blez rs rt imm) :=
  (Sys2Proof.Laws.immediateWord_rowMask _ rs rt imm).trans rfl

theorem Sys2Proof.Laws.RowMatch.bgtz (rs rt : Sys2Proof.RegIndex) (imm : Sys2Proof.Imm16) :
    Sys2Proof.Laws.RowMatch.Statement (.bgtz rs rt imm) :=
  (Sys2Proof.Laws.immediateWord_rowMask _ rs rt imm).trans rfl

theorem Sys2Proof.Laws.RowMatch.j (address : Sys2Proof.Addr26) :
    Sys2Proof.Laws.RowMatch.Statement (.j address) :=
  (Sys2Proof.Laws.jumpWord_rowMask _ address).trans rfl
end

