-- ==== Sys2Proof/Laws/Pipeline.lean ====
section
/-! SUPPORT. The decode function of spec/40_decode_pipeline.md R90, one lemma per branch, and the format
of its answer. -/

namespace Sys2Proof.Machine

variable {opc : OpcTable} {fn : FunTable} {t : RegNames} {w : Word} {m : Mnemonic} {r : Renderer}

theorem decodePorts_invalidOpcode (h : opcEntry opc (opcodeOf w) = none) :
    decodePorts opc fn t w = invalidPorts w .none .invalidOpcode := by
  simp [decodePorts, h]

theorem decodePorts_invalidFunct (h : opcEntry opc (opcodeOf w) = some .register)
    (hf : funEntry fn (functOf w) = none) :
    decodePorts opc fn t w = invalidPorts w .register .invalidFunct := by
  simp [decodePorts, h, hf]

theorem decodePorts_register {e : FunEntry} (h : opcEntry opc (opcodeOf w) = some .register)
    (hf : funEntry fn (functOf w) = some e) :
    decodePorts opc fn t w = okPorts t w .register e.mnem e.rend := by
  simp [decodePorts, h, hf]

theorem decodePorts_immediate (h : opcEntry opc (opcodeOf w) = some (.immediate m r)) :
    decodePorts opc fn t w = okPorts t w .immediate m r := by
  simp [decodePorts, h]

theorem decodePorts_jump (h : opcEntry opc (opcodeOf w) = some (.jump m r)) :
    decodePorts opc fn t w = okPorts t w .jump m r := by
  simp [decodePorts, h]

/-- The answer is that of an `OK` word or of an invalid one. -/
theorem decodePorts_cases (opc : OpcTable) (fn : FunTable) (t : RegNames) (w : Word) :
    (∃ f m r, decodePorts opc fn t w = okPorts t w f m r) ∨
    (∃ f st, st ≠ .ok ∧ decodePorts opc fn t w = invalidPorts w f st) := by
  unfold decodePorts
  split
  · exact .inr ⟨.none, .invalidOpcode, nofun, rfl⟩
  · split
    · exact .inr ⟨.register, .invalidFunct, nofun, rfl⟩
    · exact .inl ⟨_, _, _, rfl⟩
  · exact .inl ⟨_, _, _, rfl⟩
  · exact .inl ⟨_, _, _, rfl⟩

end Sys2Proof.Machine
end

