-- ==== Sys2Proof/Tests/Slice0.lean ====
section
/-! SUPPORT. Tests. The expected values are the vectors of spec/95_test_vectors.md and the encodings of
spec/30_encoding.md; the witnesses show that the hypotheses of every statement can be met together. -/

namespace Sys2Proof.Tests

open Sys2Proof.Machine

/-! ## WellFormed: each check refuses an ill-formed term -/

/-- The default REG_NAMES is one the parameter may be. -/
theorem test_wf_default_names : RegNames.wf defaultRegNames = true := by decide

/-- A table that moves the pinned `$t0` is refused (R74), although it holds the 17 names. -/
theorem test_wf_refuses_moved_pin :
    RegNames.wf ((defaultRegNames.set 8 none).set 1 (some "$t0".toList)) = false ∧
    RegNames.namesAll ((defaultRegNames.set 8 none).set 1 (some "$t0".toList)) = true := by decide

/-- A table with a name outside the 17 is refused (R24). -/
theorem test_wf_refuses_foreign_name : RegNames.wf (defaultRegNames.set 31 (some "$ra".toList)) = false := by
  decide

/-- A table that lacks one of the 17 names is refused (R24). -/
theorem test_wf_refuses_missing_name : RegNames.wf (defaultRegNames.set 0 none) = false := by decide

/-- The length filter refuses 31 characters (H2). -/
theorem test_wf_refuses_short_line :
    lineKept "1000110100001010000000000000010".toList = false := by decide

/-- A line with a character other than `0` and `1` is no word (H9). -/
theorem test_wf_refuses_non_binary_line :
    lineKept "1000110100001010000000000000010x".toList = true ∧
    lineIsWord "1000110100001010000000000000010x".toList = false := by decide

/-! ## Decoding: one word per constructor, written field by field from R62 to R67 -/

theorem test_decode_add : decode 0b000000_01000_11111_10010_00101_100000#32 =
    .instr (.add 0b01000#5 0b11111#5 0b10010#5 0b00101#5) := by decide

theorem test_decode_sub : decode 0b000000_01000_11111_10010_00101_100010#32 =
    .instr (.sub 0b01000#5 0b11111#5 0b10010#5 0b00101#5) := by decide

theorem test_decode_and : decode 0b000000_01000_11111_10010_00101_100100#32 =
    .instr (.and 0b01000#5 0b11111#5 0b10010#5 0b00101#5) := by decide

theorem test_decode_or : decode 0b000000_01000_11111_10010_00101_100101#32 =
    .instr (.or 0b01000#5 0b11111#5 0b10010#5 0b00101#5) := by decide

theorem test_decode_xor : decode 0b000000_01000_11111_10010_00101_100110#32 =
    .instr (.xor 0b01000#5 0b11111#5 0b10010#5 0b00101#5) := by decide

theorem test_decode_sll : decode 0b000000_01000_11111_10010_00101_000000#32 =
    .instr (.sll 0b01000#5 0b11111#5 0b10010#5 0b00101#5) := by decide

theorem test_decode_srl : decode 0b000000_01000_11111_10010_00101_000010#32 =
    .instr (.srl 0b01000#5 0b11111#5 0b10010#5 0b00101#5) := by decide

theorem test_decode_jr : decode 0b000000_01000_11111_10010_00101_001000#32 =
    .instr (.jr 0b01000#5 0b11111#5 0b10010#5 0b00101#5) := by decide

theorem test_decode_lb : decode 0b100000_10001_01110_1000000000000110#32 =
    .instr (.lb 0b10001#5 0b01110#5 0b1000000000000110#16) := by decide

theorem test_decode_lh : decode 0b100001_10001_01110_1000000000000110#32 =
    .instr (.lh 0b10001#5 0b01110#5 0b1000000000000110#16) := by decide

theorem test_decode_lw : decode 0b100011_10001_01110_1000000000000110#32 =
    .instr (.lw 0b10001#5 0b01110#5 0b1000000000000110#16) := by decide

theorem test_decode_sb : decode 0b101000_10001_01110_1000000000000110#32 =
    .instr (.sb 0b10001#5 0b01110#5 0b1000000000000110#16) := by decide

theorem test_decode_sh : decode 0b101001_10001_01110_1000000000000110#32 =
    .instr (.sh 0b10001#5 0b01110#5 0b1000000000000110#16) := by decide

theorem test_decode_sw : decode 0b101011_10001_01110_1000000000000110#32 =
    .instr (.sw 0b10001#5 0b01110#5 0b1000000000000110#16) := by decide

theorem test_decode_addi : decode 0b001000_10001_01110_1000000000000110#32 =
    .instr (.addi 0b10001#5 0b01110#5 0b1000000000000110#16) := by decide

theorem test_decode_andi : decode 0b001100_10001_01110_1000000000000110#32 =
    .instr (.andi 0b10001#5 0b01110#5 0b1000000000000110#16) := by decide

theorem test_decode_ori : decode 0b001101_10001_01110_1000000000000110#32 =
    .instr (.ori 0b10001#5 0b01110#5 0b1000000000000110#16) := by decide

theorem test_decode_xori : decode 0b001110_10001_01110_1000000000000110#32 =
    .instr (.xori 0b10001#5 0b01110#5 0b1000000000000110#16) := by decide

theorem test_decode_liu : decode 0b001111_10001_01110_1000000000000110#32 =
    .instr (.liu 0b10001#5 0b01110#5 0b1000000000000110#16) := by decide

theorem test_decode_beq : decode 0b000100_10001_01110_1000000000000110#32 =
    .instr (.beq 0b10001#5 0b01110#5 0b1000000000000110#16) := by decide

theorem test_decode_bne : decode 0b000101_10001_01110_1000000000000110#32 =
    .instr (.bne 0b10001#5 0b01110#5 0b1000000000000110#16) := by decide

theorem test_decode_blez : decode 0b000110_10001_01110_1000000000000110#32 =
    .instr (.blez 0b10001#5 0b01110#5 0b1000000000000110#16) := by decide

theorem test_decode_bgtz : decode 0b000111_10001_01110_1000000000000110#32 =
    .instr (.bgtz 0b10001#5 0b01110#5 0b1000000000000110#16) := by decide

theorem test_decode_j : decode 0b000010_10000000000000000000000101#32 =
    .instr (.j 0b10000000000000000000000101#26) := by decide

/-- Opcode `000011` and function code `001100` are rejected by name (R201, R220). -/
theorem test_decode_rejects :
    decode 0x0C000005#32 = .invalidOpcode ∧ decode 0x0000000C#32 = .invalidFunct := by decide

/-- No word matches two rows of spec/opcode_table.json. -/
theorem test_rows_disjoint :
    allMnemonics.Pairwise
      (fun a b => (rowMatch a ^^^ rowMatch b) &&& (rowMask a &&& rowMask b) ≠ 0#32) := by decide

/-! ## The instruction words of Part 2, through one step from reset -/

/-- What a row of the tables T1 to T61 gives of the ports. -/
structure Row where
  status : Status
  fmt : Format
  mnem : Option Mnemonic
  rend : Option Renderer
  regUnresolved : Bool
  text : Text
  deriving DecidableEq

/-- The machine at reset with one word to drive. -/
def wordState (w : Word) : State := { State.reset with words := [.driven w] }

/-- What the step drives for the word. -/
def stepRow (w : Word) : Option Row :=
  match step (wordState w) with
  | .next t => t.ports.map fun p => ⟨p.status, p.fmt, p.mnem, p.rend, p.regUnresolved, p.text⟩
  | .fault _ => none
  | .refused _ => none

/-- A row of the tables holds. -/
def rowHolds (r : Word × Row) : Bool := stepRow r.1 == some r.2

/-- T1 to T8. -/
theorem test_words_register_default :
    [(0x01095020#32, ⟨.ok, .register, some .add, some .registerDefault, false, "add $t2, $t0, $t1".toList⟩),
     (0x010951E0#32, ⟨.ok, .register, some .add, some .registerDefault, false, "add $t2, $t0, $t1".toList⟩),
     (0x0109F820#32, ⟨.ok, .register, some .add, some .registerDefault, true, "add $11111, $t0, $t1".toList⟩),
     (0x02119022#32, ⟨.ok, .register, some .sub, some .registerDefault, false, "sub $s2, $s0, $s1".toList⟩),
     (0x00221822#32, ⟨.ok, .register, some .sub, some .registerDefault, true, "sub $00011, $00001, $00010".toList⟩),
     (0x018D5824#32, ⟨.ok, .register, some .and, some .registerDefault, false, "and $t3, $t4, $t5".toList⟩),
     (0x000F9825#32, ⟨.ok, .register, some .or, some .registerDefault, false, "or $s3, $zero, $t7".toList⟩),
     (0x01084026#32, ⟨.ok, .register, some .xor, some .registerDefault, false, "xor $t0, $t0, $t0".toList⟩)].all rowHolds = true := by decide

/-- T9 to T18. -/
theorem test_words_register_shift_and_jump :
    [(0x00094100#32, ⟨.ok, .register, some .sll, some .registerShift, false, "sll $t1, $t0, 4".toList⟩),
     (0x03E94100#32, ⟨.ok, .register, some .sll, some .registerShift, false, "sll $t1, $t0, 4".toList⟩),
     (0x00000000#32, ⟨.ok, .register, some .sll, some .registerShift, false, "sll $zero, $zero, 0".toList⟩),
     (0x000947C0#32, ⟨.ok, .register, some .sll, some .registerShift, false, "sll $t1, $t0, 31".toList⟩),
     (0x00108FC2#32, ⟨.ok, .register, some .srl, some .registerShift, false, "srl $s0, $s1, 31".toList⟩),
     (0x00018842#32, ⟨.ok, .register, some .srl, some .registerShift, true, "srl $00001, $s1, 1".toList⟩),
     (0x02E00008#32, ⟨.ok, .register, some .jr, some .registerJump, false, "jr $s7".toList⟩),
     (0x03E00008#32, ⟨.ok, .register, some .jr, some .registerJump, true, "jr $11111".toList⟩),
     (0x011FFFC8#32, ⟨.ok, .register, some .jr, some .registerJump, false, "jr $t0".toList⟩),
     (0x00000008#32, ⟨.ok, .register, some .jr, some .registerJump, false, "jr $zero".toList⟩)].all rowHolds = true := by decide

/-- T19 to T27. -/
theorem test_words_memory :
    [(0x8D0A0004#32, ⟨.ok, .immediate, some .lw, some .immediateMemory, false, "lw, $t2, 4($t0)".toList⟩),
     (0x8D0A0001#32, ⟨.ok, .immediate, some .lw, some .immediateMemory, false, "lw, $t2, 1($t0)".toList⟩),
     (0x8208FFFF#32, ⟨.ok, .immediate, some .lb, some .immediateMemory, false, "lb, $t0, -1($s0)".toList⟩),
     (0x87A9FFFE#32, ⟨.ok, .immediate, some .lh, some .immediateMemory, true, "lh, $t1, -2($11101)".toList⟩),
     (0x85080000#32, ⟨.ok, .immediate, some .lh, some .immediateMemory, false, "lh, $t0, 0($t0)".toList⟩),
     (0xA1097FFF#32, ⟨.ok, .immediate, some .sb, some .immediateMemory, false, "sb, $t1, 32767($t0)".toList⟩),
     (0xA40A8000#32, ⟨.ok, .immediate, some .sh, some .immediateMemory, false, "sh, $t2, -32768($zero)".toList⟩),
     (0xAE320000#32, ⟨.ok, .immediate, some .sw, some .immediateMemory, false, "sw, $s2, 0($s1)".toList⟩),
     (0xAFFFFFFF#32, ⟨.ok, .immediate, some .sw, some .immediateMemory, true, "sw, $11111, -1($11111)".toList⟩)].all rowHolds = true := by decide

/-- T28 to T37. -/
theorem test_words_arithmetic :
    [(0x20080005#32, ⟨.ok, .immediate, some .addi, some .immediateArithmetic, false, "addi, $t0, $zero, 5".toList⟩),
     (0x21088000#32, ⟨.ok, .immediate, some .addi, some .immediateArithmetic, false, "addi, $t0, $t0, -32768".toList⟩),
     (0x21087FFF#32, ⟨.ok, .immediate, some .addi, some .immediateArithmetic, false, "addi, $t0, $t0, 32767".toList⟩),
     (0x3129FFFF#32, ⟨.ok, .immediate, some .andi, some .immediateArithmetic, false, "andi, $t1, $t1, -1".toList⟩),
     (0x312900FF#32, ⟨.ok, .immediate, some .andi, some .immediateArithmetic, false, "andi, $t1, $t1, 255".toList⟩),
     (0x34101234#32, ⟨.ok, .immediate, some .ori, some .immediateArithmetic, false, "ori, $s0, $zero, 4660".toList⟩),
     (0x3A958001#32, ⟨.ok, .immediate, some .xori, some .immediateArithmetic, false, "xori, $s5, $s4, -32767".toList⟩),
     (0x3C081000#32, ⟨.ok, .immediate, some .liu, some .immediateArithmetic, false, "liu, $t0, $zero, 4096".toList⟩),
     (0x3D28FFFF#32, ⟨.ok, .immediate, some .liu, some .immediateArithmetic, false, "liu, $t0, $t1, -1".toList⟩),
     (0x3C1A0000#32, ⟨.ok, .immediate, some .liu, some .immediateArithmetic, true, "liu, $11010, $zero, 0".toList⟩)].all rowHolds = true := by decide

/-- T38 to T45. -/
theorem test_words_branch :
    [(0x1109FFFD#32, ⟨.ok, .immediate, some .beq, some .immediateBranch, false, "beq, $t0, $t1, -3".toList⟩),
     (0x11080000#32, ⟨.ok, .immediate, some .beq, some .immediateBranch, false, "beq, $t0, $t0, 0".toList⟩),
     (0x16007FFF#32, ⟨.ok, .immediate, some .bne, some .immediateBranch, false, "bne, $s0, $zero, 32767".toList⟩),
     (0x14850001#32, ⟨.ok, .immediate, some .bne, some .immediateBranch, true, "bne, $00100, $00101, 1".toList⟩),
     (0x1900000A#32, ⟨.ok, .immediate, some .blez, some .immediateBranchSingle, false, "blez $t0, 10".toList⟩),
     (0x191FFFFF#32, ⟨.ok, .immediate, some .blez, some .immediateBranchSingle, false, "blez $t0, -1".toList⟩),
     (0x1E208000#32, ⟨.ok, .immediate, some .bgtz, some .immediateBranchSingle, false, "bgtz $s1, -32768".toList⟩),
     (0x1C400001#32, ⟨.ok, .immediate, some .bgtz, some .immediateBranchSingle, true, "bgtz $00010, 1".toList⟩)].all rowHolds = true := by decide

/-- T46 to T51. -/
theorem test_words_jump :
    [(0x08100000#32, ⟨.ok, .jump, some .j, some .jumpTarget, false, "j 1048576".toList⟩),
     (0x08000000#32, ⟨.ok, .jump, some .j, some .jumpTarget, false, "j 0".toList⟩),
     (0x0BFFFFFF#32, ⟨.ok, .jump, some .j, some .jumpTarget, false, "j 67108863".toList⟩),
     (0x0A000000#32, ⟨.ok, .jump, some .j, some .jumpTarget, false, "j 33554432".toList⟩),
     (0x08000001#32, ⟨.ok, .jump, some .j, some .jumpTarget, false, "j 1".toList⟩),
     (0x0C000005#32, ⟨.invalidOpcode, .none, none, none, false, "Invalid opcode".toList⟩)].all rowHolds = true := by decide

/-- T52 to T61. -/
theorem test_words_undefined :
    [(0xFFFFFFFF#32, ⟨.invalidOpcode, .none, none, none, false, "Invalid opcode".toList⟩),
     (0xFC000000#32, ⟨.invalidOpcode, .none, none, none, false, "Invalid opcode".toList⟩),
     (0x04000000#32, ⟨.invalidOpcode, .none, none, none, false, "Invalid opcode".toList⟩),
     (0x40000000#32, ⟨.invalidOpcode, .none, none, none, false, "Invalid opcode".toList⟩),
     (0x88000000#32, ⟨.invalidOpcode, .none, none, none, false, "Invalid opcode".toList⟩),
     (0x0000000C#32, ⟨.invalidFunct, .register, none, none, false, "Invalid opcode".toList⟩),
     (0x0000000D#32, ⟨.invalidFunct, .register, none, none, false, "Invalid opcode".toList⟩),
     (0x0021087F#32, ⟨.invalidFunct, .register, none, none, false, "Invalid opcode".toList⟩),
     (0x0109503F#32, ⟨.invalidFunct, .register, none, none, false, "Invalid opcode".toList⟩),
     (0x00000001#32, ⟨.invalidFunct, .register, none, none, false, "Invalid opcode".toList⟩)].all rowHolds = true := by decide

/-- S1 to S8: `imm_sext`, the signed value and its text. -/
theorem test_sign_extender :
    [(0b0000000000000000#16, 0x00000000#32, (0 : Int), "0".toList),
     (0b0000000000000001#16, 0x00000001#32, (1 : Int), "1".toList),
     (0b0000000000000100#16, 0x00000004#32, (4 : Int), "4".toList),
     (0b0111111111111111#16, 0x00007FFF#32, (32767 : Int), "32767".toList),
     (0b1000000000000000#16, 0xFFFF8000#32, (-32768 : Int), "-32768".toList),
     (0b1000000000000001#16, 0xFFFF8001#32, (-32767 : Int), "-32767".toList),
     (0b1111111111111110#16, 0xFFFFFFFE#32, (-2 : Int), "-2".toList),
     (0b1111111111111111#16, 0xFFFFFFFF#32, (-1 : Int), "-1".toList)].all
      (fun r => sextImm r.1 == r.2.1 && sintImm r.1 == r.2.2.1 && immText r.1 == r.2.2.2) = true := by
  decide

/-- S9 to S11 and the further checks on `dec`. -/
theorem test_unsigned_and_dec :
    shamtText 0b11111#5 = "31".toList ∧ addressText 0x3FFFFFF#26 = "67108863".toList ∧
    addressText 0x2000000#26 = "33554432".toList ∧ decInt 0 = "0".toList ∧
    decInt 7 = "7".toList ∧ decInt (-7) = "-7".toList := by decide

/-- Table G, indices 0 to 15: the text, and whether the index is unresolved. -/
theorem test_register_lookup_low :
    [(0b00000#5, "$zero".toList, false), (0b00001#5, "$00001".toList, true),
     (0b00010#5, "$00010".toList, true), (0b00011#5, "$00011".toList, true),
     (0b00100#5, "$00100".toList, true), (0b00101#5, "$00101".toList, true),
     (0b00110#5, "$00110".toList, true), (0b00111#5, "$00111".toList, true),
     (0b01000#5, "$t0".toList, false), (0b01001#5, "$t1".toList, false),
     (0b01010#5, "$t2".toList, false), (0b01011#5, "$t3".toList, false),
     (0b01100#5, "$t4".toList, false), (0b01101#5, "$t5".toList, false),
     (0b01110#5, "$t6".toList, false), (0b01111#5, "$t7".toList, false)].all
      (fun r => regText defaultRegNames r.1 == r.2.1 && unnamed defaultRegNames r.1 == r.2.2) = true := by
  decide

/-- Table G, indices 16 to 31: the text, and whether the index is unresolved. -/
theorem test_register_lookup_high :
    [(0b10000#5, "$s0".toList, false), (0b10001#5, "$s1".toList, false),
     (0b10010#5, "$s2".toList, false), (0b10011#5, "$s3".toList, false),
     (0b10100#5, "$s4".toList, false), (0b10101#5, "$s5".toList, false),
     (0b10110#5, "$s6".toList, false), (0b10111#5, "$s7".toList, false),
     (0b11000#5, "$11000".toList, true), (0b11001#5, "$11001".toList, true),
     (0b11010#5, "$11010".toList, true), (0b11011#5, "$11011".toList, true),
     (0b11100#5, "$11100".toList, true), (0b11101#5, "$11101".toList, true),
     (0b11110#5, "$11110".toList, true), (0b11111#5, "$11111".toList, true)].all
      (fun r => regText defaultRegNames r.1 == r.2.1 && unnamed defaultRegNames r.1 == r.2.2) = true := by
  decide

/-! ## The host boundary: rows H, one line each, and the outcome priority table -/

/-- The machine with a file open and these raw lines left. -/
def lineState (ls : List Text) : State := { State.reset with lines := some ls }

/-- The output lines after one step, or the fault. -/
def lineStep (l : Text) : Option (List Text) ⊕ Fault :=
  match step (lineState [l]) with
  | .next t => .inl (some t.outLines)
  | .fault f => .inr f
  | .refused _ => .inl none

/-- H1: blanks and a CR are trimmed. -/
theorem test_host_trims : lineStep "  10001101000010100000000000000100\r".toList =
    .inl (some ["lw, $t2, 4($t0)".toList]) := by decide

/-- H2 to H6: wrong lengths are skipped. -/
theorem test_host_skips :
    ["1000110100001010000000000000010".toList, "100011010000101000000000000001000".toList,
     "".toList, "    \t".toList, "1000110100001010\t0000000000000100".toList].all
      (fun l => lineStep l == .inl (some [])) = true := by decide

/-- H7, H8 and H11: a bad opcode string gives the invalid line. -/
theorem test_host_bad_opcode_string :
    ["x0001101000010100000000000000100".toList, "20001101000010100000000000000100".toList,
     "10001 01000010100000000000000100".toList, "1111110000000000000000000000000x".toList].all
      (fun l => lineStep l == .inl (some ["Invalid opcode".toList])) = true := by decide

/-- H9 and H10, and the priority of the character check over the function code. -/
theorem test_host_non_binary :
    ["1000110100001010000000000000010x".toList, "00000010111000000000x00000001000".toList,
     "0000000000000000000000000000110x".toList].all
      (fun l => lineStep l == .inr (.nonBinary 0)) = true := by decide

/-- A word line and the same word driven directly give the same ports. -/
theorem test_line_and_word_agree :
    (match step (lineState ["00000001000010010101000000100000".toList]),
        step (wordState 0x01095020#32) with
      | .next t, .next u => t.ports == u.ports && t.ports.isSome
      | _, _ => false) = true := by decide

/-- The text splits at LF, and opening a file shows its lines (D11). -/
theorem test_open_splits :
    (match step { State.reset with files := [.contents "ab\r\n\nc".toList] } with
      | .next t => t.lines == some ["ab\r".toList, "".toList, "c".toList]
      | _ => false) = true := by decide

/-- An unreadable file gives the notice and an empty sequence (R51). -/
theorem test_unreadable :
    (match step { State.reset with files := [.unreadable, .contents []] } with
      | .next t => t.results == [.unreadable] && t.files == [.contents []]
      | _ => false) = true := by decide

/-- A file with no kept line gives an empty sequence (R50). -/
theorem test_close_empty :
    (match step (lineState []) with
      | .next t => t.results == [.lines []] && t.lines == none
      | _ => false) = true := by decide

/-- Nothing presented at reset: the step is refused. -/
theorem test_reset_idle :
    (match step State.reset with
      | .refused r => r == .inputNotDriven
      | _ => false) = true := by decide

/-- Bytes of a packed word, in both orders (R43). -/
theorem test_packed :
    hostWordBits (.packed .big 0x01#8 0x09#8 0x50#8 0x20#8) = 0x01095020#32 ∧
    hostWordBits (.packed .little 0x20#8 0x50#8 0x09#8 0x01#8) = 0x01095020#32 := by decide

/-- Both framings of two lines (R52, C3). -/
theorem test_framing :
    frameLines .joined ["a".toList, "b".toList] = "a\nb".toList ∧
    frameLines .terminated ["a".toList, "b".toList] = "a\nb\n".toList := by decide

/-- The word placed by `withFetchWord` is the one the next step runs. -/
theorem test_fetch_word :
    decodeTableWord 32 0x8D0A0004 = some (.lw 0b01000#5 0b01010#5 4#16) ∧
    (match step (State.reset.withFetchWord 32 0x8D0A0004) with
      | .next t => t.ports.map (·.text) == some "lw, $t2, 4($t0)".toList
      | _ => false) = true := by decide

/-! ## Witnesses: the hypotheses of each statement are met together -/

theorem wordState_romOk (w : Word) : (wordState w).RomOk := ⟨rfl, rfl⟩

theorem lineState_romOk (ls : List Text) : (lineState ls).RomOk := ⟨rfl, rfl⟩

theorem wordState_inv (w : Word) : (wordState w).Inv :=
  ⟨⟨rfl, rfl⟩, test_wf_default_names, trivial, rfl, fun _ => ⟨rfl, rfl⟩⟩

/-- A state of the machine with the port driven. -/
def drivenState (w : Word) : State :=
  { State.reset with instr := some w, ports := some (decodePorts opcRom funRom defaultRegNames w) }

theorem drivenState_inv (w : Word) : (drivenState w).Inv :=
  ⟨⟨rfl, rfl⟩, test_wf_default_names, rfl, rfl, fun _ => ⟨rfl, rfl⟩⟩

/-- `Claims.Prints`, which every statement about one instruction uses. -/
theorem witness_Prints : (wordState 0x01095020#32).RomOk ∧
    (wordState 0x01095020#32).regn = defaultRegNames ∧
    (wordState 0x01095020#32).words = .driven 0x01095020#32 :: [] :=
  ⟨wordState_romOk _, rfl, rfl⟩

/-- A defined function code (the least, `sll`), and an undefined one (the greatest). -/
theorem witness_RegisterOpcodeFollowsFunctionCode :
    (wordState 0#32).RomOk ∧ (wordState 0#32).words = .driven 0#32 :: [] ∧
    opcodeOf 0#32 = 0b000000#6 ∧ (0b000000#6, FunEntry.mk .sll .registerShift) ∈ Claims.functRows ∧
    functOf 0#32 = 0b000000#6 ∧
    (wordState 0x3F#32).RomOk ∧ (wordState 0x3F#32).words = .driven 0x3F#32 :: [] ∧
    opcodeOf 0x3F#32 = 0b000000#6 ∧ functOf 0x3F#32 ∈ Claims.undefinedFuncts :=
  ⟨wordState_romOk _, rfl, by decide, by decide, by decide, wordState_romOk _, rfl, by decide,
    by decide⟩

theorem witness_MemoryFamilyPrintsOffsetAndBase :
    (wordState 0xAFFFFFFF#32).RomOk ∧ (wordState 0xAFFFFFFF#32).words = .driven 0xAFFFFFFF#32 :: [] ∧
    opcodeOf 0xAFFFFFFF#32 ∈
      [0b100000#6, 0b100001#6, 0b100011#6, 0b101000#6, 0b101001#6, 0b101011#6] :=
  ⟨wordState_romOk _, rfl, by decide⟩

/-- With the immediate `0xFFFF`, so that the clause about it is met too. -/
theorem witness_ArithmeticFamilyPrintsSignedImmediate :
    (wordState 0x3129FFFF#32).RomOk ∧ (wordState 0x3129FFFF#32).words = .driven 0x3129FFFF#32 :: [] ∧
    opcodeOf 0x3129FFFF#32 ∈ [0b001000#6, 0b001100#6, 0b001101#6, 0b001110#6, 0b001111#6] ∧
    immOf 0x3129FFFF#32 = 0xFFFF#16 :=
  ⟨wordState_romOk _, rfl, by decide, by decide⟩

/-- One word for each clause: `beq` and `bgtz`. -/
theorem witness_BranchFamilyPrintsRawOffset :
    (wordState 0x1109FFFD#32).RomOk ∧ (wordState 0x1109FFFD#32).words = .driven 0x1109FFFD#32 :: [] ∧
    opcodeOf 0x1109FFFD#32 ∈ [0b000100#6, 0b000101#6] ∧
    (wordState 0x1E208000#32).RomOk ∧ (wordState 0x1E208000#32).words = .driven 0x1E208000#32 :: [] ∧
    opcodeOf 0x1E208000#32 ∈ [0b000110#6, 0b000111#6] :=
  ⟨wordState_romOk _, rfl, by decide, wordState_romOk _, rfl, by decide⟩

theorem witness_OnlyOneOpcodeIsAJump :
    (wordState 0x0C000005#32).RomOk ∧ (wordState 0x0C000005#32).words = .driven 0x0C000005#32 :: [] ∧
    (wordState 0x08000000#32).RomOk ∧ (wordState 0x08000000#32).words = .driven 0x08000000#32 :: [] :=
  ⟨wordState_romOk _, rfl, wordState_romOk _, rfl⟩

theorem witness_EncodeDecodeIsIdentity :
    decode 0x0BFFFFFF#32 = .instr (.j 0x3FFFFFF#26) := by decide

theorem witness_DispatchTablesHoldTheirRows : opcodeOf 0x0BFFFFFF#32 ≠ 0b000000#6 := by decide

/-- A named index, and unnamed ones under the default table. -/
theorem witness_RegisterTextIsNameOrBits :
    regName defaultRegNames 8#5 = some "$t0".toList ∧ regName defaultRegNames 24#5 = none ∧
    regName defaultRegNames 0b00001#5 = none ∧ regName defaultRegNames 0b11111#5 = none := by decide

theorem witness_UnresolvedFlagsPrintedFieldsOnly :
    (wordState 0x191FFFFF#32).RomOk ∧ (wordState 0x191FFFFF#32).words = .driven 0x191FFFFF#32 :: [] ∧
    (wordState 0x04000000#32).RomOk ∧ (wordState 0x04000000#32).words = .driven 0x04000000#32 :: [] :=
  ⟨wordState_romOk _, rfl, wordState_romOk _, rfl⟩

/-- The two sides of the top bit, at the values where they meet. -/
theorem witness_ImmediateIsNegativeIffTopBit :
    (0x8000#16).msb = true ∧ (0x7FFF#16).msb = false := by decide

theorem witness_DecimalTextIsCanonical : (0 : Nat) < 1 := by decide

theorem witness_TextIsShortPrintableLine : (drivenState 0x23FF8000#32).Inv ∧
    (drivenState 0x23FF8000#32).ports = some (decodePorts opcRom funRom defaultRegNames 0x23FF8000#32) :=
  ⟨drivenState_inv _, rfl⟩

/-- `add` with two different shift amounts (T1, T2), and `jr` with every unread field different. -/
theorem witness_UnprintedFieldsChangeNothing :
    (wordState 0x01095020#32).RomOk ∧ (wordState 0x010951E0#32).RomOk ∧
    (wordState 0x01095020#32).regn = (wordState 0x010951E0#32).regn ∧
    (wordState 0x01095020#32).words = .driven 0x01095020#32 :: [] ∧
    (wordState 0x010951E0#32).words = .driven 0x010951E0#32 :: [] ∧
    opcodeOf 0x01095020#32 = opcodeOf 0x010951E0#32 ∧
    (opcodeOf 0x01095020#32 = 0b000000#6 → functOf 0x01095020#32 = functOf 0x010951E0#32) ∧
    Claims.SamePrinted .registerDefault 0x01095020#32 0x010951E0#32 ∧
    Claims.SamePrinted .registerJump 0x01000008#32 0x011FFFC8#32 :=
  ⟨wordState_romOk _, wordState_romOk _, rfl, rfl, rfl, by decide, fun _ => by decide,
    ⟨by decide, by decide, by decide⟩,
    (show rsOf 0x01000008#32 = rsOf 0x011FFFC8#32 by decide)⟩

theorem witness_UndefinedOpcodeGivesInvalidOpcode :
    (wordState 0xFC000000#32).RomOk ∧ (wordState 0xFC000000#32).words = .driven 0xFC000000#32 :: [] ∧
    opcodeOf 0xFC000000#32 ∈ Claims.undefinedOpcodes :=
  ⟨wordState_romOk _, rfl, by decide⟩

/-- A word driven directly, and a line. -/
theorem witness_StepRunsTheDecodedInstruction :
    (wordState 0x08000000#32).RomOk ∧ (wordState 0x08000000#32).words = .driven 0x08000000#32 :: [] ∧
    decode (hostWordBits (.driven 0x08000000#32)) = .instr (.j 0#26) ∧
    (lineState ["00001000000000000000000000000000".toList]).RomOk ∧
    Claims.NextLine (lineState ["00001000000000000000000000000000".toList])
      "00001000000000000000000000000000".toList [] ∧
    lineIsWord (trim "00001000000000000000000000000000".toList) = true ∧
    decode (wordOfLine (trim "00001000000000000000000000000000".toList)) = .instr (.j 0#26) :=
  ⟨wordState_romOk _, rfl, by decide, lineState_romOk _, ⟨rfl, rfl⟩, by decide, by decide⟩

theorem witness_StepDrivesDecodeOfTheWord :
    (wordState 0xFFFFFFFF#32).RomOk ∧ (wordState 0xFFFFFFFF#32).words = .driven 0xFFFFFFFF#32 :: [] :=
  ⟨wordState_romOk _, rfl⟩

theorem witness_EveryStepKeepsTheInvariant : (wordState 0x01095020#32).Inv ∧
    ∃ t, step (wordState 0x01095020#32) = .next t :=
  ⟨wordState_inv _, _, rfl⟩

theorem witness_FieldPortsAreRawSlices : (drivenState 0xFC00003F#32).Inv ∧
    (drivenState 0xFC00003F#32).instr = some 0xFC00003F#32 :=
  ⟨drivenState_inv _, rfl⟩

/-- Two states with the same next word and different words decoded before. -/
theorem witness_OutputsForgetEarlierWords :
    (wordState 0x08000001#32).opc = (drivenState 0x01095020#32).opc ∧
    (wordState 0x08000001#32).fn = (drivenState 0x01095020#32).fn ∧
    (wordState 0x08000001#32).regn = (drivenState 0x01095020#32).regn ∧
    (wordState 0x08000001#32).words = .driven 0x08000001#32 :: [] ∧
    ({ drivenState 0x01095020#32 with words := [.driven 0x08000001#32] } : State).words =
      .driven 0x08000001#32 :: [] :=
  ⟨rfl, rfl, rfl, rfl, rfl⟩

theorem witness_NoStepWritesTheTables : ∃ t, step (lineState []) = .next t := ⟨_, rfl⟩

theorem witness_LinesAreSplitAndTrimmed :
    ({ State.reset with files := [.contents "a\n".toList] } : State).words = [] ∧
    ({ State.reset with files := [.contents "a\n".toList] } : State).lines = none ∧
    ({ State.reset with files := [.contents "a\n".toList] } : State).files =
      .contents "a\n".toList :: [] ∧
    Claims.NextLine (lineState [" a\r".toList]) " a\r".toList [] ∧ trim " a\r".toList = "a".toList :=
  ⟨rfl, rfl, rfl, ⟨rfl, rfl⟩, by decide⟩

/-- One character short, and one too many. -/
theorem witness_WrongLengthLineIsSkipped :
    Claims.NextLine (lineState ["1000110100001010000000000000010".toList])
      "1000110100001010000000000000010".toList [] ∧
    (trim "1000110100001010000000000000010".toList).length ≠ 32 ∧
    Claims.NextLine (lineState ["100011010000101000000000000001000".toList])
      "100011010000101000000000000001000".toList [] ∧
    (trim "100011010000101000000000000001000".toList).length ≠ 32 :=
  ⟨⟨rfl, rfl⟩, by decide, ⟨rfl, rfl⟩, by decide⟩

/-- One line for each branch of R47 (H7, H9, H1). -/
theorem witness_KeptLineFollowsTheLineRule :
    (lineState ["x0001101000010100000000000000100".toList]).RomOk ∧
    Claims.NextLine (lineState ["x0001101000010100000000000000100".toList])
      "x0001101000010100000000000000100".toList [] ∧
    (trim "x0001101000010100000000000000100".toList).length = 32 ∧
    (trim "x0001101000010100000000000000100".toList).take 6 ∉ Claims.opcodeStrings ∧
    Claims.NextLine (lineState ["1000110100001010000000000000010x".toList])
      "1000110100001010000000000000010x".toList [] ∧
    (trim "1000110100001010000000000000010x".toList).length = 32 ∧
    (trim "1000110100001010000000000000010x".toList).take 6 ∈ Claims.opcodeStrings ∧
    (∃ c ∈ (trim "1000110100001010000000000000010x".toList).drop 6, Claims.NonBinary c) ∧
    Claims.NextLine (lineState ["10001101000010100000000000000100".toList])
      "10001101000010100000000000000100".toList [] ∧
    (trim "10001101000010100000000000000100".toList).length = 32 ∧
    (trim "10001101000010100000000000000100".toList).take 6 ∈ Claims.opcodeStrings ∧
    ¬ ∃ c ∈ (trim "10001101000010100000000000000100".toList).drop 6, Claims.NonBinary c :=
  ⟨lineState_romOk _, ⟨rfl, rfl⟩, by decide, by decide, ⟨rfl, rfl⟩, by decide, by decide,
    ⟨'x', by decide, by decide⟩, ⟨rfl, rfl⟩, by decide, by decide, by
      have h : ((trim "10001101000010100000000000000100".toList).drop 6).all isBinary = true := by
        decide
      rintro ⟨c, hc, h0, h1⟩
      have := List.all_eq_true.mp h c hc
      simp [isBinary, h0, h1] at this⟩

theorem witness_FirstCharacterIsBitThirtyOne :
    lineIsWord "10001101000010100000000000000100".toList = true ∧ (31 : Nat) < 32 := by decide

/-- A file of a skipped line, a word and an undefined opcode. -/
theorem witness_FileGivesItsLinesInOrder :
    (lineState ["".toList, "10001101000010100000000000000100".toList]).RomOk ∧
    (lineState ["".toList, "10001101000010100000000000000100".toList]).words = [] ∧
    (lineState ["".toList, "10001101000010100000000000000100".toList]).lines =
      some ["".toList, "10001101000010100000000000000100".toList] ∧
    (lineState ["".toList, "10001101000010100000000000000100".toList]).kept = 0 ∧
    (lineState ["".toList, "10001101000010100000000000000100".toList]).outLines = [] ∧
    ∀ l ∈ ["".toList, "10001101000010100000000000000100".toList],
      lineResult opcRom funRom defaultRegNames l ≠ .nonBinary :=
  ⟨lineState_romOk _, rfl, rfl, rfl, rfl, by decide⟩

/-- P4: the third kept line is the first that faults; here after one good line. -/
theorem witness_FirstNonBinaryLineFaultsTheFile :
    (lineState (["00100000000010000000000000000001".toList] ++
      "00100000000010000000000000000002".toList :: [])).RomOk ∧
    (lineState (["00100000000010000000000000000001".toList] ++
      "00100000000010000000000000000002".toList :: [])).words = [] ∧
    (lineState (["00100000000010000000000000000001".toList] ++
      "00100000000010000000000000000002".toList :: [])).lines =
      some (["00100000000010000000000000000001".toList] ++
        "00100000000010000000000000000002".toList :: []) ∧
    (lineState (["00100000000010000000000000000001".toList] ++
      "00100000000010000000000000000002".toList :: [])).kept = 0 ∧
    (∀ x ∈ ["00100000000010000000000000000001".toList],
      lineResult opcRom funRom defaultRegNames x ≠ .nonBinary) ∧
    lineResult opcRom funRom defaultRegNames "00100000000010000000000000000002".toList = .nonBinary ∧
    ["00100000000010000000000000000001".toList].length < 2 :=
  ⟨lineState_romOk _, rfl, rfl, rfl, by decide, by decide, by decide⟩

theorem witness_UnreadableFileGivesNoticeAndGoesOn :
    ({ State.reset with files := [.unreadable, .contents []] } : State).words = [] ∧
    ({ State.reset with files := [.unreadable, .contents []] } : State).lines = none ∧
    ({ State.reset with files := [.unreadable, .contents []] } : State).files =
      .unreadable :: [.contents []] :=
  ⟨rfl, rfl, rfl⟩

/-- H9 faults. -/
theorem witness_OnlyTheLineRuleFaults : (lineState ["1000110100001010000000000000010x".toList]).RomOk ∧
    step (lineState ["1000110100001010000000000000010x".toList]) = .fault (.nonBinary 0) :=
  ⟨lineState_romOk _, rfl⟩

/-- One line for each case of R218, in the order of the rule. -/
theorem witness_FirstConditionDecidesTheOutcome :
    (∀ l : Text, (lineState [l]).RomOk ∧ Claims.NextLine (lineState [l]) l []) ∧
    (trim "x".toList).length ≠ 32 ∧
    (trim "1111110000000000000000000000000x".toList).take 6 ∉ Claims.opcodeStrings ∧
    (∃ c ∈ (trim "0000000000000000000000000000110x".toList).drop 6, Claims.NonBinary c) ∧
    functOf (wordOfLine (trim "00000000001000010000100001111111".toList)) ∈ Claims.undefinedFuncts ∧
    functOf (wordOfLine (trim "00000011111000000000000000001000".toList)) ∉ Claims.undefinedFuncts :=
  ⟨fun _ => ⟨lineState_romOk _, rfl, rfl⟩, by decide, by decide, ⟨'x', by decide, by decide⟩, by decide,
    by decide⟩

/-- Two lines with no terminator in them, and an index of a byte at the end of its range. -/
theorem witness_HostParametersAreArguments :
    ["a".toList, "b".toList] ≠ [] ∧ (∀ l ∈ ["a".toList, "b".toList], '\n' ∉ l) ∧ (7 : Nat) < 8 := by
  decide

end Sys2Proof.Tests
end

section
/-! PROOFS of the statements of 10_state.md: the contents of the tables, a word on the port with the
tables of the spec, and the invariant of the machine. -/

namespace Sys2Proof.Machine

/-! ## A table and the list of its rows -/

/-- A table that holds every row of `rows`, and holds nothing at an index that no row has, is that list
of rows. -/
theorem table_eq_some_iff_mem {n : Nat} {α : Type} {t : BitVec n → Option α}
    {rows : List (BitVec n × α)} (holds : ∀ row ∈ rows, t row.1 = some row.2)
    (only : ∀ i, (t i).isSome → i ∈ rows.map Prod.fst) (i : BitVec n) (a : α) :
    t i = some a ↔ (i, a) ∈ rows := by
  refine ⟨fun h => ?_, fun h => holds _ h⟩
  obtain ⟨⟨j, b⟩, hmem, rfl⟩ := List.mem_map.1 (only i (by simp [h]))
  obtain rfl : a = b := Option.some.inj (h.symm.trans (holds _ hmem))
  exact hmem

/-- `OPC` holds exactly the rows of R66. -/
theorem opcEntry_opcRom_eq_some_iff (o : Opcode) (e : OpcEntry) :
    opcEntry opcRom o = some e ↔ (o, e) ∈ Claims.opcodeRows :=
  table_eq_some_iff_mem (t := opcEntry opcRom) (by decide) (by decide) o e

/-- `FUN` holds exactly the rows of R67. -/
theorem funEntry_funRom_eq_some_iff (f : Funct) (e : FunEntry) :
    funEntry funRom f = some e ↔ (f, e) ∈ Claims.functRows :=
  table_eq_some_iff_mem (t := funEntry funRom) (by decide) (by decide) f e

/-- The only register row of R66 is that of opcode `000000`. -/
theorem opcode_eq_zero_of_register_row {o : Opcode} (h : (o, .register) ∈ Claims.opcodeRows) :
    o = 0b000000#6 := by
  simpa [Claims.opcodeRows] using h

/-! ## The instruction of a row drives the word it was decoded from -/

/-- An immediate row of R66: its instruction drives the row's opcode over the slices of `w`. -/
theorem exec_instrOf_immediate_row {o : Opcode} {m : Mnemonic} {r : Renderer}
    (h : (o, .immediate m r) ∈ Claims.opcodeRows) (w : Word) (s : State) :
    exec (instrOf m w) s =
      .next (s.drive (immediateWord o (rsOf w) (rtOf w) (immOf w)) .immediate m r) := by
  simp only [Claims.opcodeRows, List.mem_cons, Prod.mk.injEq, OpcEntry.immediate.injEq, reduceCtorEq,
    and_false, false_or, or_false, List.not_mem_nil] at h
  casesm* _ ∨ _ <;> (obtain ⟨rfl, rfl, rfl⟩ := ‹_ ∧ _›; rfl)

/-- The jump row of R66: its instruction drives the row's opcode over the address of `w`. -/
theorem exec_instrOf_jump_row {o : Opcode} {m : Mnemonic} {r : Renderer}
    (h : (o, .jump m r) ∈ Claims.opcodeRows) (w : Word) (s : State) :
    exec (instrOf m w) s = .next (s.drive (jumpWord o (addressOf w)) .jump m r) := by
  obtain ⟨rfl, rfl, rfl⟩ : o = 0b000010#6 ∧ m = .j ∧ r = .jumpTarget := by
    simpa [Claims.opcodeRows] using h
  rfl

/-- A row of R67: its instruction drives the row's function code under the slices of `w`. -/
theorem exec_instrOf_register_row {f : Funct} {e : FunEntry} (h : (f, e) ∈ Claims.functRows)
    (w : Word) (s : State) :
    exec (instrOf e.mnem w) s =
      .next (s.drive (registerWord (rsOf w) (rtOf w) (rdOf w) (shamtOf w) f) .register
        e.mnem e.rend) := by
  simp only [Claims.functRows, List.mem_cons, Prod.mk.injEq, or_false, List.not_mem_nil] at h
  casesm* _ ∨ _ <;> (obtain ⟨rfl, rfl⟩ := ‹_ ∧ _›; rfl)

/-! ## A word on the port, with the tables of the spec -/

/-- `s` with the word `w` on the port and every output at `decode(instr)` (R90). -/
def State.driveWord (s : State) (w : Word) : State :=
  { s with
    instr := some w
    ports := some (decodePorts s.opc s.fn s.regn w)
    lastOutcome := some (Claims.statusOutcome (decodePorts s.opc s.fn s.regn w).status) }

/-- An `OK` word whose ports are the pseudocode's is `driveWord`. -/
theorem State.drive_eq_driveWord {s : State} {w : Word} {f : Format} {m : Mnemonic} {r : Renderer}
    (h : decodePorts s.opc s.fn s.regn w = okPorts s.regn w f m r) :
    s.drive w f m r = s.driveWord w := by
  simp [State.driveWord, State.drive, h, okPorts, Claims.statusOutcome]

/-- With the tables of the spec the word on the port gives the outputs of R90's pseudocode, and changes
nothing but the port fields and the outcome. -/
theorem runWord_eq_driveWord {s : State} (hs : s.RomOk) (w : Word) :
    runWord w s = .next (s.driveWord w) := by
  obtain ⟨hopc, hfn⟩ := hs
  cases ho : opcEntry s.opc (opcodeOf w) with
  | none =>
    simp [runWord, decodeWith, ho, State.driveWord, State.driveInvalidOpcode,
      decodePorts_invalidOpcode ho, invalidPorts, Claims.statusOutcome]
  | some entry =>
    have hrow := (opcEntry_opcRom_eq_some_iff _ _).1 (hopc ▸ ho)
    cases entry with
    | immediate m r =>
      rw [← State.drive_eq_driveWord (decodePorts_immediate ho)]
      simpa [runWord, decodeWith, ho, immediateWord_slices] using exec_instrOf_immediate_row hrow w s
    | jump m r =>
      rw [← State.drive_eq_driveWord (decodePorts_jump ho)]
      simpa [runWord, decodeWith, ho, jumpWord_slices] using exec_instrOf_jump_row hrow w s
    | register =>
      cases hf : funEntry s.fn (functOf w) with
      | none =>
        simp [runWord, decodeWith, ho, hf, State.driveWord, State.driveInvalidFunct,
          decodePorts_invalidFunct ho hf, invalidPorts, Claims.statusOutcome]
      | some e =>
        have hfrow := (funEntry_funRom_eq_some_iff _ _).1 (hfn ▸ hf)
        have hzero := opcode_eq_zero_of_register_row hrow
        rw [← State.drive_eq_driveWord (decodePorts_register ho hf)]
        simpa [runWord, decodeWith, ho, hf, registerWord_slices w hzero] using
          exec_instrOf_register_row hfrow w s

/-! ## The invariant, operation by operation -/

namespace State

variable {s : State}

/-- The outputs are those of the driven word. -/
theorem Inv.ports_eq (h : s.Inv) {w : Word} (hw : s.instr = some w) :
    s.ports = some (decodePorts s.opc s.fn s.regn w) := by
  have hfollow := h.follow
  cases hp : s.ports with
  | none => simp [PortsFollowInput, hw, hp] at hfollow
  | some p => simpa [PortsFollowInput, hw, hp] using hfollow

/-- The queue of words is no part of the invariant. -/
theorem Inv.setWords (h : s.Inv) (ws : List HostWord) : Inv { s with words := ws } :=
  ⟨⟨h.rom.opc, h.rom.fn⟩, h.names, h.follow, h.count, h.idle⟩

/-- The queue of files is no part of the invariant. -/
theorem Inv.setFiles (h : s.Inv) (fs : List InputFile) : Inv { s with files := fs } :=
  ⟨⟨h.rom.opc, h.rom.fn⟩, h.names, h.follow, h.count, h.idle⟩

/-- With a file open, which lines are left is no part of the invariant. -/
theorem Inv.setLines (h : s.Inv) (ls : List Text) : Inv { s with lines := some ls } :=
  ⟨⟨h.rom.opc, h.rom.fn⟩, h.names, h.follow, h.count, nofun⟩

/-- The results of the finished files are no part of the invariant. -/
theorem Inv.setResults (h : s.Inv) (rs : List FileResult) : Inv { s with results := rs } :=
  ⟨⟨h.rom.opc, h.rom.fn⟩, h.names, h.follow, h.count, h.idle⟩

/-- The start of a file's bookkeeping: nothing kept, whatever lines are left. -/
theorem Inv.restart (h : s.Inv) (ls : Option (List Text)) :
    Inv { s with lines := ls, kept := 0, outLines := [] } :=
  ⟨⟨h.rom.opc, h.rom.fn⟩, h.names, h.follow, rfl, fun _ => ⟨rfl, rfl⟩⟩

theorem Inv.driveWord (h : s.Inv) (w : Word) : (s.driveWord w).Inv :=
  ⟨⟨h.rom.opc, h.rom.fn⟩, h.names, rfl, h.count, h.idle⟩

theorem Inv.undrive (h : s.Inv) (o : Option DecodeOutcome) : (s.undrive o).Inv :=
  ⟨⟨h.rom.opc, h.rom.fn⟩, h.names, trivial, h.count, h.idle⟩

/-- One more kept line, with a file open, is one more output line. -/
theorem Inv.collect (h : s.Inv) (hopen : s.lines ≠ none) (x : Text) : (s.collect x).Inv :=
  ⟨⟨h.rom.opc, h.rom.fn⟩, h.names, h.follow, by simp [h.count], fun hnone => absurd hnone hopen⟩

theorem Inv.collectText (h : s.Inv) (hopen : s.lines ≠ none) : s.collectText.Inv := by
  cases hp : s.ports with
  | none => simpa [State.collectText, hp] using h
  | some p => exact collectText_of_ports hp ▸ h.collect hopen p.text

theorem Inv.closeFile (h : s.Inv) : s.closeFile.Inv :=
  ((h.undrive none).restart none).setResults _

theorem Inv.openFile (h : s.Inv) (f : InputFile) : (s.openFile f).Inv := by
  cases f with
  | unreadable => exact (h.undrive _).setResults _
  | contents x => exact (h.undrive none).restart _

end State

/-- A word on the port keeps the invariant, and leaves the lines of the open file. -/
theorem runWord_inv {w : Word} {s t : State} (hs : s.Inv) (h : runWord w s = .next t) :
    t.Inv ∧ t.lines = s.lines := by
  rw [runWord_eq_driveWord hs.rom] at h
  cases h
  exact ⟨hs.driveWord w, rfl⟩

/-- A line of an open file that does not fault keeps the invariant. -/
theorem runLine_inv {raw : Text} {s t : State} (hs : s.Inv) (hopen : s.lines ≠ none)
    (h : runLine raw s = .next t) : t.Inv := by
  obtain ⟨-, hl⟩ | ⟨-, hl⟩ | ⟨-, hl⟩ | ⟨w, v, -, hw, hl⟩ := runLine_cases raw s <;>
    cases hl.symm.trans h
  · exact hs.undrive _
  · exact (hs.undrive _).collect hopen _
  · obtain ⟨hv, hlines⟩ := runWord_inv hs hw
    exact hv.collectText (hlines ▸ hopen)

/-- Settles O43: each of the five items a step can meet keeps the invariant. -/
theorem everyStepKeepsTheInvariant : Obligations.EveryStepKeepsTheInvariant := by
  intro s t hs h
  obtain ⟨_, ws, hw⟩ | ⟨hw, _, ls, hl⟩ | ⟨hw, hl⟩ | ⟨hw, hl, f, fs, hf⟩ | ⟨hw, hl, hf⟩ := item_cases s
  case inl => exact (runWord_inv (hs.setWords ws) (step_word hw ▸ h)).1
  case inr.inl => exact runLine_inv (hs.setLines ls) nofun (step_line hw hl ▸ h)
  case inr.inr.inl =>
    cases (step_close hw hl).symm.trans h
    exact hs.closeFile
  case inr.inr.inr.inl =>
    cases (step_open hw hl hf).symm.trans h
    exact (hs.setFiles fs).openFile f
  case inr.inr.inr.inr => cases (step_idle hw hl hf).symm.trans h

/-! ## Field ports -/

/-- The field ports of the pseudocode are the raw slices of the word, whatever the tables hold. -/
theorem decodePorts_fields (opc : OpcTable) (fn : FunTable) (t : RegNames) (w : Word) :
    ∃ p, decodePorts opc fn t w = p ∧
      p.opcode = opcodeOf w ∧ p.rs = rsOf w ∧ p.rt = rtOf w ∧ p.rd = rdOf w ∧ p.shamt = shamtOf w ∧
      p.funct = functOf w ∧ p.imm16 = immOf w ∧ p.addr26 = addressOf w ∧
      p.immSext = sextImm (immOf w) := by
  obtain ⟨f, m, r, h⟩ | ⟨f, st, -, h⟩ := decodePorts_cases opc fn t w <;> rw [h] <;>
    exact ⟨_, rfl, rfl, rfl, rfl, rfl, rfl, rfl, rfl, rfl, rfl⟩

/-- The format is that of the opcode's entry (R93). -/
theorem decodePorts_fmt (opc : OpcTable) (fn : FunTable) (t : RegNames) (w : Word) :
    (decodePorts opc fn t w).fmt = entryFormat (opcEntry opc (opcodeOf w)) := by
  cases ho : opcEntry opc (opcodeOf w) with
  | none => rw [decodePorts_invalidOpcode ho]; rfl
  | some entry =>
    cases entry with
    | immediate m r => rw [decodePorts_immediate ho]; rfl
    | jump m r => rw [decodePorts_jump ho]; rfl
    | register =>
      cases hf : funEntry fn (functOf w) with
      | none => rw [decodePorts_invalidFunct ho hf]; rfl
      | some e => rw [decodePorts_register ho hf]; rfl

/-- The format of an opcode, by R66 and the undefined opcodes of R68. -/
theorem entryFormat_opcRom : ∀ o : Opcode, entryFormat (opcEntry opcRom o) =
    if o = 0b000000#6 then .register
    else if o = 0b000010#6 then .jump
    else if o ∈ Claims.undefinedOpcodes then .none
    else .immediate := by
  decide

/-- The sign-extended immediate of a word, bit by bit (R99): bit 15 stands above bits 15 to 0. -/
theorem getLsbD_sextImm_immOf (w : Word) (i : Nat) :
    (sextImm (immOf w)).getLsbD i =
      (decide (i < 32) && if i < 16 then w.getLsbD i else w.getLsbD 15) := by
  have hlow : ∀ k, k < 16 → (immOf w).getLsbD k = w.getLsbD k := by
    intro k hk
    simp [immOf, hk]
  have hmsb : (immOf w).msb = w.getLsbD 15 := (BitVec.msb_eq_getLsbD_last _).trans (hlow 15 (by omega))
  rw [sextImm, BitVec.getLsbD_signExtend, hmsb]
  congr 1
  split_ifs with hi
  · exact hlow i hi
  · rfl

/-- Extending the immediate to 32 bits keeps its signed value (R98, R99). -/
theorem toInt_sextImm (imm : Imm16) : (sextImm imm).toInt = sintImm imm := by
  rw [sextImm, BitVec.toInt_signExtend_of_le (by omega), BitVec.toInt_eq_msb_cond]
  rfl

/-- Settles O45: under the invariant the ports are those of the pseudocode, whose field ports and format
do not depend on the outcome. -/
theorem fieldPortsAreRawSlices : Obligations.FieldPortsAreRawSlices := by
  intro s w hs hw
  obtain ⟨p, hp, hopcode, hrs, hrt, hrd, hshamt, hfunct, himm, haddr, hsext⟩ :=
    decodePorts_fields s.opc s.fn s.regn w
  have hfmt : p.fmt = entryFormat (opcEntry opcRom (opcodeOf w)) := by
    rw [← hp, decodePorts_fmt, hs.rom.opc]
  refine ⟨p, hp ▸ hs.ports_eq hw, hopcode, hrs, hrt, hrd, hshamt, hfunct, himm, haddr, hsext, ?_, ?_, ?_⟩
  · exact fun i => hsext ▸ getLsbD_sextImm_immOf w i
  · exact hsext ▸ toInt_sextImm (immOf w)
  · exact hfmt.trans (entryFormat_opcRom (opcodeOf w))

/-! ## No output depends on what came before -/

/-- Every instruction drives its own word, with a format, a mnemonic and a renderer that are the same
from every state. -/
theorem exec_drives_from_every_state (i : Instr) :
    ∃ f m r, ∀ s, exec i s = .next (s.drive (encode i) f m r) := by
  cases i <;> exact ⟨_, _, _, fun _ => rfl⟩

/-- From states with the same tables, whatever these hold, the same word gives the same input port and
the same outputs. -/
theorem runWord_ports_of_same_tables {s s' : State} (hopc : s.opc = s'.opc) (hfn : s.fn = s'.fn)
    (hregn : s.regn = s'.regn) (w : Word) :
    ∃ t t' p, runWord w s = .next t ∧ runWord w s' = .next t' ∧
      t.ports = some p ∧ t'.ports = some p ∧ t.instr = t'.instr := by
  unfold runWord
  rw [← hopc, ← hfn]
  cases decodeWith s.opc s.fn w with
  | instr i =>
    obtain ⟨f, m, r, h⟩ := exec_drives_from_every_state i
    exact ⟨_, _, _, h s, h s', rfl, by rw [hregn]; rfl, rfl⟩
  | invalidOpcode => exact ⟨_, _, _, rfl, rfl, rfl, rfl, rfl⟩
  | invalidFunct => exact ⟨_, _, _, rfl, rfl, rfl, rfl, rfl⟩

/-- Settles O47: both steps put the same word on the port, with the same tables. -/
theorem outputsForgetEarlierWords : Obligations.OutputsForgetEarlierWords := by
  intro s s' h ws ws' hopc hfn hregn hw hw'
  rw [step_word hw, step_word hw']
  exact runWord_ports_of_same_tables (s := { s with words := ws }) (s' := { s' with words := ws' })
    hopc hfn hregn (hostWordBits h)

/-! ## Reset -/

/-- The names of the default REG_NAMES, with their indices (R74). -/
def defaultNames : List (RegIndex × Text) :=
  [(0#5, "$zero".toList),
   (8#5, "$t0".toList), (9#5, "$t1".toList), (10#5, "$t2".toList), (11#5, "$t3".toList),
   (12#5, "$t4".toList), (13#5, "$t5".toList), (14#5, "$t6".toList), (15#5, "$t7".toList),
   (16#5, "$s0".toList), (17#5, "$s1".toList), (18#5, "$s2".toList), (19#5, "$s3".toList),
   (20#5, "$s4".toList), (21#5, "$s5".toList), (22#5, "$s6".toList), (23#5, "$s7".toList)]

/-- The default REG_NAMES holds exactly these names. -/
theorem regName_defaultRegNames_eq_some_iff (r : RegIndex) (n : Text) :
    regName defaultRegNames r = some n ↔ (r, n) ∈ defaultNames :=
  table_eq_some_iff_mem (t := regName defaultRegNames) (by decide) (by decide) r n

/-- The default is a table that REG_NAMES may be (R24, R74). -/
theorem defaultRegNames_wf : defaultRegNames.wf = true := by
  decide

theorem reset_inv : State.reset.Inv :=
  ⟨⟨rfl, rfl⟩, defaultRegNames_wf, trivial, rfl, fun _ => ⟨rfl, rfl⟩⟩

/-- Settles O44: the names are those of the default table's rows, and the rest is the reset state's own
fields. -/
theorem resetHoldsTablesAndInvariant : Obligations.ResetHoldsTablesAndInvariant :=
  ⟨reset_inv, rfl, rfl, regName_defaultRegNames_eq_some_iff⟩

end Sys2Proof.Machine
end

section
/-! PROOFS of the statements of 20_memory.md: the lines of a file, the bits of a line, the line rule of
R47, a run over a file, and the host's parameters. -/

namespace Sys2Proof.Machine

/-! ## Splitting at LF, and output framing -/

/-- `splitLines` is the library's split at LF. -/
theorem splitLines_eq_splitOn (x : Text) : splitLines x = x.splitOn '\n' := by
  induction x with
  | nil => rfl
  | cons c cs ih =>
    obtain ⟨l, ls, h⟩ := List.exists_cons_of_ne_nil (List.splitOnP_ne_nil (· == '\n') cs)
    rw [splitLines, ih]
    simp only [List.splitOn, List.splitOnP_cons_eq_if_modifyHead, h]
    rfl

/-- No line of a split text holds LF. -/
theorem lineFeed_notMem_of_mem_splitLines (x : Text) : ∀ l ∈ splitLines x, '\n' ∉ l := by
  induction x with
  | nil => simp [splitLines]
  | cons c cs ih =>
    rw [splitLines]
    split_ifs with hc
    · simpa using ih
    · have hne : '\n' ≠ c := fun h => hc (by simp [← h, lineFeed])
      cases h : splitLines cs with
      | nil => simpa using hne
      | cons l ls => simpa [h, hne] using ih

/-- Joined framing puts LF between the lines. -/
theorem frameLines_joined (ls : List Text) : frameLines .joined ls = ['\n'].intercalate ls := by
  induction ls with
  | nil => rfl
  | cons l ls ih =>
    cases ls with
    | nil => simp [frameLines]
    | cons m ls =>
      rw [frameLines, ih, List.intercalate_cons_of_ne_nil (List.cons_ne_nil m ls)]
      rfl

/-- Terminated framing is joined framing with an empty last line. -/
theorem frameLines_terminated {ls : List Text} (h : ls ≠ []) :
    frameLines .terminated ls = ['\n'].intercalate (ls ++ [[]]) := by
  induction ls with
  | nil => exact absurd rfl h
  | cons l ls ih =>
    cases ls with
    | nil => simp [frameLines, lineFeed]
    | cons m ls =>
      simp only [frameLines, ih (List.cons_ne_nil m ls), List.cons_append,
        List.intercalate_cons_of_ne_nil (List.cons_ne_nil _ _)]
      rfl

/-- Lines without LF, joined by LF, split into the lines again. -/
theorem splitLines_intercalate {ls : List Text} (h : ls ≠ []) (hlf : ∀ l ∈ ls, '\n' ∉ l) :
    splitLines (['\n'].intercalate ls) = ls := by
  rw [splitLines_eq_splitOn, List.splitOn_intercalate '\n' hlf h]

/-! ## Packed words -/

/-- Each of four bytes put together stands at its own place, the first at the top. -/
theorem getLsbD_append_bytes (a b c d : Byte) {i : Nat} (hi : i < 8) :
    (a ++ b ++ c ++ d).getLsbD (24 + i) = a.getLsbD i ∧
    (a ++ b ++ c ++ d).getLsbD (16 + i) = b.getLsbD i ∧
    (a ++ b ++ c ++ d).getLsbD (8 + i) = c.getLsbD i ∧
    (a ++ b ++ c ++ d).getLsbD i = d.getLsbD i := by
  have habove (k : Nat) : ¬ 8 + k < 8 := by omega
  simp only [show 24 + i = 8 + (8 + (8 + i)) by omega, show 16 + i = 8 + (8 + i) by omega,
    BitVec.getLsbD_append, habove, hi, if_true, if_false, Nat.add_sub_cancel_left, and_self]

/-- Settles O60: a byte stands at its own place in the concatenation, and both framings join by LF lines
that hold none. -/
theorem hostParametersAreArguments : Obligations.HostParametersAreArguments := by
  refine ⟨fun b0 b1 b2 b3 i hi => ?_, fun ls hne hlf => ⟨?_, ?_⟩, fun _ => rfl⟩
  · obtain ⟨hb0, hb1, hb2, hb3⟩ := getLsbD_append_bytes b0 b1 b2 b3 hi
    obtain ⟨hl3, hl2, hl1, hl0⟩ := getLsbD_append_bytes b3 b2 b1 b0 hi
    exact ⟨hb0, hb1, hb2, hb3, hl3, hl2, hl1, hl0⟩
  · rw [frameLines_joined, splitLines_intercalate hne hlf]
  · rw [frameLines_terminated hne, splitLines_intercalate (by simp)]
    simpa [or_imp, forall_and] using hlf

/-! ## Whitespace and the trim -/

/-- The whitespace set of D11, as characters. -/
theorem isWhitespace_iff (c : Char) : isWhitespace c = true ↔
    c ∈ [' ', '\t', '\n', Char.ofNat 0x0B, Char.ofNat 0x0C, '\r'] := by
  have hchar (d : Char) : c = d ↔ c.toNat = d.toNat := Char.toNat_inj.symm
  simp [isWhitespace, hchar, or_assoc]

/-- Trimming removes whitespace before the trimmed line and after it, and nothing else. -/
theorem trim_append (l : Text) : ∃ pre post, l = pre ++ trim l ++ post ∧
    (∀ c ∈ pre, isWhitespace c = true) ∧ (∀ c ∈ post, isWhitespace c = true) := by
  refine ⟨l.takeWhile isWhitespace, (l.dropWhile isWhitespace).rtakeWhile isWhitespace, ?_,
    fun _ => List.mem_takeWhile_imp, fun _ => List.mem_rtakeWhile_imp⟩
  rw [List.append_assoc, show trim l = (l.dropWhile isWhitespace).rdropWhile isWhitespace from rfl,
    List.rdropWhile_append_rtakeWhile, List.takeWhile_append_dropWhile]

/-- A trimmed line does not begin with whitespace. -/
theorem isWhitespace_head_trim {l : Text} {c : Char} (h : (trim l).head? = some c) :
    isWhitespace c = false := by
  have hpre : trim l <+: l.dropWhile isWhitespace := List.rdropWhile_prefix isWhitespace _
  have hhead := List.head?_dropWhile_not isWhitespace l
  obtain ⟨rest, htrim⟩ := List.head?_eq_some_iff.1 h
  obtain ⟨post, hdrop⟩ := htrim ▸ hpre
  simpa [← hdrop] using hhead

/-- A trimmed line does not end with whitespace. -/
theorem isWhitespace_getLast_trim {l : Text} {c : Char} (h : (trim l).getLast? = some c) :
    isWhitespace c = false := by
  have hlast := List.head?_dropWhile_not isWhitespace (l.dropWhile isWhitespace).reverse
  rw [trim, List.getLast?_reverse] at h
  simpa [h] using hlast

/-- A line without whitespace at either end is its own trim. -/
theorem trim_eq_self {l : Text} (hhead : ∀ c, l.head? = some c → isWhitespace c = false)
    (hlast : ∀ c, l.getLast? = some c → isWhitespace c = false) : trim l = l := by
  have hdrop : l.dropWhile isWhitespace = l := by
    cases l with
    | nil => rfl
    | cons c cs => simp [hhead c rfl]
  refine (congrArg (List.rdropWhile isWhitespace) hdrop).trans (List.rdropWhile_eq_self_iff.2 ?_)
  exact fun hne => by simp [hlast _ (List.getLast?_eq_some_getLast hne)]

@[simp] theorem trim_trim (l : Text) : trim (trim l) = trim l :=
  trim_eq_self (fun _ => isWhitespace_head_trim) (fun _ => isWhitespace_getLast_trim)

/-- A raw line counts as its trimmed line does. -/
theorem runLine_trim (l : Text) (s : State) : runLine (trim l) s = runLine l s := by
  simp [runLine, classifyLine]

/-- Settles O50: opening a file is one step of the host, the split and the trim are as above, and a step
reads a raw line through its trim alone. -/
theorem linesAreSplitAndTrimmed : Obligations.LinesAreSplitAndTrimmed := by
  refine ⟨?_, ?_, isWhitespace_iff, ?_, ?_⟩
  · intro s x fs hw hl hf
    exact ⟨_, step_open hw hl hf, rfl, rfl, rfl, rfl, rfl⟩
  · intro x
    refine ⟨?_, lineFeed_notMem_of_mem_splitLines x⟩
    rw [splitLines_eq_splitOn, List.intercalate_splitOn]
  · intro l
    obtain ⟨pre, post, heq, hpre, hpost⟩ := trim_append l
    exact ⟨pre, post, heq, hpre, hpost, fun _ => isWhitespace_head_trim,
      fun _ => isWhitespace_getLast_trim⟩
  · intro s l ls ⟨hw, hl⟩
    rw [step_line hw hl, step_line (s := { s with lines := some (trim l :: ls) }) hw rfl,
      runLine_trim]

/-! ## The bits of a line -/

/-- One more character is one more low bit. -/
theorem bitsValue_concat (s : Text) (c : Char) :
    bitsValue (s ++ [c]) = Nat.bit (c == '1') (bitsValue s) := by
  simp [bitsValue, Nat.bit_val, Bool.toNat]

/-- Bit `k` of the value of a string written backwards is its character `k`. -/
theorem testBit_bitsValue_reverse (r : Text) (k : Nat) :
    (bitsValue r.reverse).testBit k = (r[k]? == some '1') := by
  induction r generalizing k with
  | nil => simp [bitsValue]
  | cons c r ih =>
    rw [List.reverse_cons, bitsValue_concat]
    cases k with
    | zero => simp [beq_eq_decide]
    | succ k => simp [Nat.testBit_bit_succ, ih]

/-- Bit `k` of a string of bits is its character `k` from the end. -/
theorem testBit_bitsValue {s : Text} {k : Nat} (hk : k < s.length) :
    (bitsValue s).testBit k = (s[s.length - 1 - k]? == some '1') := by
  rw [← List.getElem?_reverse hk, ← testBit_bitsValue_reverse, List.reverse_reverse]

/-- The characters of a binary string are the bits of its value, the highest first. -/
theorem getElem?_of_binary {s : Text} (hs : s.all isBinary = true) {i : Nat} (hi : i < s.length) :
    s[i]? = some (if (bitsValue s).testBit (s.length - 1 - i) then '1' else '0') := by
  have hbin : s[i] = '0' ∨ s[i] = '1' := by
    simpa [isBinary] using List.all_eq_true.1 hs s[i] (List.getElem_mem hi)
  rw [testBit_bitsValue (by omega), show s.length - 1 - (s.length - 1 - i) = i by omega,
    List.getElem?_eq_getElem hi]
  rcases hbin with h | h <;> simp [h]

/-- The bits of a value as an `n`-bit word, below `n`, are those of the value. -/
theorem getLsbD_ofNat_bitsValue (n : Nat) (s : Text) {k : Nat} (hk : k < n) :
    (BitVec.ofNat n (bitsValue s)).getLsbD k = (bitsValue s).testBit k := by
  rw [BitVec.getLsbD_ofNat, decide_eq_true hk, Bool.true_and]

/-- Settles O53: the characters of a binary line are the bits of its value, which are those of the word. -/
theorem firstCharacterIsBitThirtyOne : Obligations.FirstCharacterIsBitThirtyOne := by
  intro l hl i hi
  obtain ⟨hlen, hbin⟩ : l.length = 32 ∧ l.all isBinary = true := by
    simpa [lineIsWord, lineKept] using hl
  rw [getElem?_of_binary hbin (by omega), hlen, wordOfLine, getLsbD_ofNat_bitsValue 32 l (by omega)]

/-- Binary strings of length `n` with the same value in `n` bits are equal. -/
theorem eq_of_ofNat_bitsValue_eq {n : Nat} {s s' : Text} (hs : s.all isBinary = true)
    (hs' : s'.all isBinary = true) (hlen : s.length = n) (hlen' : s'.length = n)
    (h : BitVec.ofNat n (bitsValue s) = BitVec.ofNat n (bitsValue s')) : s = s' := by
  apply List.ext_getElem?
  intro i
  by_cases hi : i < n
  · rw [getElem?_of_binary hs (by omega), getElem?_of_binary hs' (by omega), hlen, hlen',
      ← getLsbD_ofNat_bitsValue n s (by omega), h, getLsbD_ofNat_bitsValue n s' (by omega)]
  · rw [List.getElem?_eq_none (by omega), List.getElem?_eq_none (by omega)]

/-- The opcode of the word of a line of 32 characters is the value of its first six. -/
theorem opcodeOf_wordOfLine {l : Text} (hl : l.length = 32) :
    opcodeOf (wordOfLine l) = BitVec.ofNat 6 (bitsValue (l.take 6)) := by
  apply BitVec.eq_of_getLsbD_eq
  intro i hi
  have hlen : (l.take 6).length = 6 := by simp [hl]
  rw [getLsbD_ofNat_bitsValue 6 _ hi, testBit_bitsValue (by omega), hlen,
    List.getElem?_take_of_lt (by omega), opcodeOf, BitVec.getLsbD_extractLsb', decide_eq_true hi,
    Bool.true_and, wordOfLine, getLsbD_ofNat_bitsValue 32 l (by omega), testBit_bitsValue (by omega),
    hl, show 32 - 1 - (26 + i) = 6 - 1 - i by omega]

/-! ## The opcode strings -/

/-- The opcode strings are binary strings of six characters, and their values are the opcodes of `OPC`. -/
theorem opcodeStrings_defined : ∀ k ∈ Claims.opcodeStrings,
    k.length = 6 ∧ k.all isBinary = true ∧ opcodeStringDefined opcRom k = true := by
  decide

/-- Every opcode of `OPC` is the value of an opcode string. -/
theorem exists_opcodeString_of_opcEntry : ∀ o : Opcode, (opcEntry opcRom o).isSome = true →
    ∃ k ∈ Claims.opcodeStrings, BitVec.ofNat 6 (bitsValue k) = o := by
  decide

/-- With the tables of the spec, the keys of `OPC` are the 17 opcode strings. -/
theorem opcodeStringDefined_iff {k : Text} (hk : k.length = 6) :
    opcodeStringDefined opcRom k = true ↔ k ∈ Claims.opcodeStrings := by
  refine ⟨fun h => ?_, fun h => (opcodeStrings_defined k h).2.2⟩
  obtain ⟨hbin, hentry⟩ : k.all isBinary = true ∧
      (opcEntry opcRom (BitVec.ofNat 6 (bitsValue k))).isSome = true := by
    simpa only [opcodeStringDefined, Bool.and_eq_true] using h
  obtain ⟨k', hmem, hvalue⟩ := exists_opcodeString_of_opcEntry _ hentry
  obtain ⟨hlen', hbin', -⟩ := opcodeStrings_defined k' hmem
  exact eq_of_ofNat_bitsValue_eq hbin hbin' hk hlen' hvalue.symm ▸ hmem

/-- A text is not binary exactly when it holds a non-binary character. -/
theorem any_not_isBinary_iff (k : Text) :
    k.any (fun c => !isBinary c) = true ↔ ∃ c ∈ k, Claims.NonBinary c := by
  simp [isBinary]

/-- A text is binary exactly when it holds no non-binary character. -/
theorem all_isBinary_iff (k : Text) :
    k.all isBinary = true ↔ ¬ ∃ c ∈ k, Claims.NonBinary c := by
  simp [isBinary, or_iff_not_imp_left]

/-- A binary line is a binary opcode string before binary characters. -/
theorem all_isBinary_iff_take_drop (k : Text) :
    k.all isBinary = true ↔ (k.take 6).all isBinary = true ∧ (k.drop 6).all isBinary = true := by
  conv_lhs => rw [← List.take_append_drop 6 k, List.all_append, Bool.and_eq_true]

/-! ## The pseudocode of R47, branch by branch -/

section LineResult
variable {opc : OpcTable} {fn : FunTable} {t : RegNames} {raw : Text}

theorem lineResult_of_length_ne (h : (trim raw).length ≠ 32) :
    lineResult opc fn t raw = .skipped := by
  simp [lineResult, h]

theorem lineResult_of_undefined (hlen : (trim raw).length = 32)
    (h : opcodeStringDefined opc ((trim raw).take 6) = false) :
    lineResult opc fn t raw = .text invalidText := by
  simp [lineResult, hlen, h]

theorem lineResult_of_nonBinary (hlen : (trim raw).length = 32)
    (h : opcodeStringDefined opc ((trim raw).take 6) = true)
    (hc : ∃ c ∈ (trim raw).drop 6, Claims.NonBinary c) :
    lineResult opc fn t raw = .nonBinary := by
  rw [lineResult, if_neg (not_not.2 hlen), if_neg (by simp [h]),
    if_pos ((any_not_isBinary_iff _).2 hc)]

/-- A line of 32 bits gives the text of its word. Where its opcode string is no key, the pseudocode of
R47 does not decode the word, but the decode of it gives the same text (R92). -/
theorem lineResult_of_binary (hlen : (trim raw).length = 32)
    (hbin : (trim raw).all isBinary = true) :
    lineResult opc fn t raw = .text (decodePorts opc fn t (wordOfLine (trim raw))).text := by
  obtain ⟨htake, hdrop⟩ := (all_isBinary_iff_take_drop _).1 hbin
  cases hdef : opcodeStringDefined opc ((trim raw).take 6) with
  | true =>
    rw [lineResult, if_neg (not_not.2 hlen), if_neg (by simp [hdef]),
      if_neg (mt (any_not_isBinary_iff _).1 ((all_isBinary_iff _).1 hdrop))]
  | false =>
    have hentry : opcEntry opc (opcodeOf (wordOfLine (trim raw))) = none := by
      rw [opcodeOf_wordOfLine hlen]
      simpa [opcodeStringDefined, htake] using hdef
    rw [lineResult_of_undefined hlen hdef, decodePorts_invalidOpcode hentry]
    rfl

end LineResult

/-! ## A raw line on the host follows the pseudocode of R47 -/

/-- `s` with other values on the ports and another last outcome. -/
def State.setPorts (s : State) (i : Option Word) (p : Option Ports) (o : Option DecodeOutcome) : State :=
  { s with instr := i, ports := p, lastOutcome := o }

/-- A line of 32 bits drives its word, and the host collects the text of it. -/
theorem runLine_of_binary {s : State} (hs : s.RomOk) {raw : Text} (hlen : (trim raw).length = 32)
    (hbin : (trim raw).all isBinary = true) :
    runLine raw s = .next ((s.driveWord (wordOfLine (trim raw))).collect
      (decodePorts s.opc s.fn s.regn (wordOfLine (trim raw))).text) := by
  have hclass : classifyLine s.opc raw = .word (wordOfLine (trim raw)) := by
    simp [classifyLine, lineKept, hlen, hbin]
  rw [runLine, hclass]
  simp only [runWord_eq_driveWord hs, collectNext]
  rfl

/-- A raw line is skipped, faults, or gives one output line, as the pseudocode of R47 says. -/
theorem runLine_follows_lineResult {s : State} (hs : s.RomOk) (raw : Text) :
    ((trim raw).length ≠ 32 ∧ lineResult s.opc s.fn s.regn raw = .skipped ∧
      runLine raw s = .next s.skipLine) ∨
    ((trim raw).length = 32 ∧ lineResult s.opc s.fn s.regn raw = .nonBinary ∧
      runLine raw s = .fault (.nonBinary s.kept)) ∨
    ((trim raw).length = 32 ∧ ∃ x i p o, lineResult s.opc s.fn s.regn raw = .text x ∧
      runLine raw s = .next ((s.setPorts i p o).collect x)) := by
  by_cases hlen : (trim raw).length = 32
  case neg =>
    exact .inl ⟨hlen, lineResult_of_length_ne hlen, by simp [runLine, classifyLine, lineKept, hlen]⟩
  by_cases hbin : (trim raw).all isBinary = true
  case pos =>
    exact .inr (.inr ⟨hlen, _, _, _, _, lineResult_of_binary hlen hbin, runLine_of_binary hs hlen hbin⟩)
  cases hdef : opcodeStringDefined s.opc ((trim raw).take 6) with
  | true =>
    have hclass : classifyLine s.opc raw = .nonBinary := by
      simp only [classifyLine, lineKept, hlen, hbin, hdef]; rfl
    have htake : ((trim raw).take 6).all isBinary = true := (Bool.and_eq_true _ _ ▸ hdef).1
    have hdrop : ∃ c ∈ (trim raw).drop 6, Claims.NonBinary c := by
      by_contra hno
      exact hbin ((all_isBinary_iff_take_drop _).2 ⟨htake, (all_isBinary_iff _).2 hno⟩)
    exact .inr (.inl ⟨hlen, lineResult_of_nonBinary hlen hdef hdrop, by rw [runLine, hclass]⟩)
  | false =>
    have hclass : classifyLine s.opc raw = .invalidOpcode := by
      simp only [classifyLine, lineKept, hlen, hbin, hdef]; rfl
    exact .inr (.inr ⟨hlen, invalidText, none, none, some .invalidOpcode,
      lineResult_of_undefined hlen hdef, by rw [runLine, hclass]; rfl⟩)

theorem runLine_of_text {s : State} (hs : s.RomOk) {raw x : Text}
    (h : lineResult s.opc s.fn s.regn raw = .text x) :
    ∃ i p o, runLine raw s = .next ((s.setPorts i p o).collect x) := by
  obtain ⟨-, hr, -⟩ | ⟨-, hr, -⟩ | ⟨-, y, i, p, o, hr, hrun⟩ := runLine_follows_lineResult hs raw <;>
    cases hr.symm.trans h
  exact ⟨i, p, o, hrun⟩

theorem runLine_of_nonBinary {s : State} (hs : s.RomOk) {raw : Text}
    (h : lineResult s.opc s.fn s.regn raw = .nonBinary) :
    runLine raw s = .fault (.nonBinary s.kept) := by
  obtain ⟨-, hr, -⟩ | ⟨-, -, hrun⟩ | ⟨-, y, i, p, o, hr, -⟩ := runLine_follows_lineResult hs raw
  · cases hr.symm.trans h
  · exact hrun
  · cases hr.symm.trans h

/-- Which lines are left is no part of what the tables hold. -/
theorem State.RomOk.setLines {s : State} (hs : s.RomOk) (ls : Option (List Text)) :
    State.RomOk { s with lines := ls } :=
  ⟨hs.opc, hs.fn⟩

/-- Settles O52: the host follows the pseudocode of R47, whose keys are the 17 opcode strings. -/
theorem keptLineFollowsTheLineRule : Obligations.KeptLineFollowsTheLineRule := by
  intro s l ls hs ⟨hw, hl⟩ hlen
  have hkey : opcodeStringDefined s.opc ((trim l).take 6) = true ↔
      (trim l).take 6 ∈ Claims.opcodeStrings :=
    hs.opc ▸ opcodeStringDefined_iff (by simp [hlen])
  have hs' := hs.setLines (some ls)
  rw [step_line hw hl]
  refine ⟨fun hno => ?_, fun hmem hc => ?_, fun hmem hc => ?_⟩
  · have hdef := Bool.eq_false_iff.2 (mt hkey.1 hno)
    obtain ⟨i, p, o, h⟩ := runLine_of_text hs' (lineResult_of_undefined hlen hdef)
    exact ⟨_, h, rfl⟩
  · exact runLine_of_nonBinary hs' (lineResult_of_nonBinary hlen (hkey.2 hmem) hc)
  · obtain ⟨-, htake, -⟩ := opcodeStrings_defined _ hmem
    have hbin := (all_isBinary_iff_take_drop _).2 ⟨htake, (all_isBinary_iff _).2 hc⟩
    exact ⟨_, runLine_of_binary hs' hlen hbin, rfl, rfl⟩

/-! ## A run over the lines of a file -/

/-- `s` after the lines `ls` of the open file, none of which faults, with the lines `rest` left. -/
def State.afterLines (s : State) (ls rest : List Text) (i : Option Word) (p : Option Ports)
    (o : Option DecodeOutcome) : State :=
  { s.setPorts i p o with
    lines := some rest
    kept := s.kept + Claims.keptCount ls
    outLines := s.outLines ++ ls.filterMap (Claims.lineText s) }

theorem keptCount_cons (l : Text) (ls : List Text) :
    Claims.keptCount (l :: ls) = Claims.keptCount [l] + Claims.keptCount ls := by
  rw [Claims.keptCount, ← List.singleton_append, List.filter_append, List.length_append]
  rfl

/-- The lines after the first are read from the state after the first. -/
theorem State.afterLines_cons (s : State) (l : Text) (ls rest rest' : List Text)
    (i i' : Option Word) (p p' : Option Ports) (o o' : Option DecodeOutcome) :
    (s.afterLines [l] rest' i' p' o').afterLines ls rest i p o = s.afterLines (l :: ls) rest i p o := by
  have hout : (l :: ls).filterMap (Claims.lineText s) =
      [l].filterMap (Claims.lineText s) ++ ls.filterMap (Claims.lineText s) :=
    List.filterMap_append (l := [l])
  simp only [State.afterLines, keptCount_cons l ls, hout, ← Nat.add_assoc, ← List.append_assoc]
  rfl

/-- A line that does not fault is one step. -/
theorem step_line_afterLines {s : State} (hs : s.RomOk) (hw : s.words = []) {l : Text}
    {rest : List Text} (hl : s.lines = some (l :: rest))
    (h : lineResult s.opc s.fn s.regn l ≠ .nonBinary) :
    ∃ i p o, step s = .next (s.afterLines [l] rest i p o) := by
  rw [step_line hw hl]
  obtain ⟨hlen, hr, hrun⟩ | ⟨-, hr, -⟩ | ⟨hlen, x, i, p, o, hr, hrun⟩ :=
    runLine_follows_lineResult (hs.setLines (some rest)) l
  · refine ⟨none, none, some .lineSkipped, ?_⟩
    simp [hrun, State.afterLines, State.setPorts, State.skipLine, State.undrive, Claims.keptCount,
      Claims.lineText, hlen, show lineResult s.opc s.fn s.regn l = .skipped from hr]
  · exact absurd hr h
  · refine ⟨i, p, o, ?_⟩
    simp [hrun, State.afterLines, State.setPorts, State.collect, Claims.keptCount, Claims.lineText,
      hlen, show lineResult s.opc s.fn s.regn l = .text x from hr]

/-- A run goes on from the state after its first step. -/
theorem run_succ_of_next {M : Host.Core} {s t : M.State} (h : M.step s = .next t) (n : Nat) :
    M.run (n + 1) s = M.run n t := by
  rw [Host.Core.run, h]

/-- A run ends in the fault of its first step. -/
theorem run_succ_of_fault {M : Host.Core} {s : M.State} {f : M.Fault} (h : M.step s = .fault f)
    (n : Nat) : M.run (n + 1) s = .fault f := by
  rw [Host.Core.run, h]

/-- Lines that do not fault are one step each. -/
theorem run_lines {s : State} (hs : s.RomOk) (hw : s.words = []) {ls rest : List Text}
    (hl : s.lines = some (ls ++ rest)) (h : ∀ l ∈ ls, lineResult s.opc s.fn s.regn l ≠ .nonBinary) :
    ∃ i p o, ∀ n, Host.Core.run core (ls.length + n) s =
      Host.Core.run core n (s.afterLines ls rest i p o) := by
  induction ls generalizing s with
  | nil =>
    have heq : s.afterLines [] rest s.instr s.ports s.lastOutcome = s := by
      simp [State.afterLines, State.setPorts, Claims.keptCount, ← show s.lines = some rest from hl]
    exact ⟨_, _, _, fun n => by rw [heq, List.length_nil, Nat.zero_add]⟩
  | cons l ls ih =>
    obtain ⟨i', p', o', hstep⟩ := step_line_afterLines (rest := ls ++ rest) hs hw hl
      (h l List.mem_cons_self)
    obtain ⟨i, p, o, hrun⟩ := ih (s := s.afterLines [l] (ls ++ rest) i' p' o') ⟨hs.opc, hs.fn⟩ hw rfl
      (fun x hx => h x (List.mem_cons_of_mem l hx))
    refine ⟨i, p, o, fun n => ?_⟩
    rw [List.length_cons, Nat.add_right_comm, ← State.afterLines_cons, ← hrun n]
    exact run_succ_of_next (M := core) hstep _

/-- A line that does not fault gives an output line exactly when the length filter keeps it. -/
theorem isSome_lineText {s : State} (hs : s.RomOk) {l : Text}
    (h : lineResult s.opc s.fn s.regn l ≠ .nonBinary) :
    (Claims.lineText s l).isSome = ((trim l).length == 32) := by
  obtain ⟨hlen, hr, -⟩ | ⟨-, hr, -⟩ | ⟨hlen, x, i, p, o, hr, -⟩ := runLine_follows_lineResult hs l
  · simp [Claims.lineText, hr, hlen]
  · exact absurd hr h
  · simp [Claims.lineText, hr, hlen]

/-- Settles O54: a run over all the lines, and the step that closes the file. -/
theorem fileGivesItsLinesInOrder : Obligations.FileGivesItsLinesInOrder := by
  intro s ls hs hw hl hkept hout h
  constructor
  · rw [List.length_filterMap_eq_countP, Claims.keptCount, ← List.countP_eq_length_filter]
    exact List.countP_congr fun l hmem => by rw [isSome_lineText hs (h l hmem)]
  · obtain ⟨i, p, o, hrun⟩ := run_lines hs hw (rest := []) (by simpa using hl) h
    have hclose : step (s.afterLines ls [] i p o) = .next (s.afterLines ls [] i p o).closeFile :=
      step_close hw rfl
    refine ⟨_, (hrun 1).trans (run_succ_of_next (M := core) hclose 0), rfl, rfl, ?_⟩
    simp [State.afterLines, State.setPorts, hout]

/-- Settles O55: a run over the lines before the first that faults, and the step that faults. -/
theorem firstNonBinaryLineFaultsTheFile : Obligations.FirstNonBinaryLineFaultsTheFile := by
  intro s before l after hs hw hl hkept hbefore hfault n hn
  obtain ⟨k, rfl⟩ := Nat.exists_eq_add_of_lt hn
  obtain ⟨i, p, o, hrun⟩ := run_lines hs hw hl hbefore
  have hstep : step (s.afterLines before (l :: after) i p o) =
      .fault (.nonBinary (s.kept + Claims.keptCount before)) :=
    (step_line (s := s.afterLines before (l :: after) i p o) hw rfl).trans
      (runLine_of_nonBinary (s := s.afterLines before after i p o) ⟨hs.opc, hs.fn⟩ hfault)
  rw [hkept, Nat.zero_add] at hstep
  rw [Nat.add_assoc, hrun]
  exact run_succ_of_fault (M := core) hstep k

/-! ## The tables, and an unreadable file -/

/-- `t` holds the tables of `s`. -/
def SameTables (s t : State) : Prop := t.opc = s.opc ∧ t.fn = s.fn ∧ t.regn = s.regn

/-- A word on the port leaves the tables. -/
theorem runWord_sameTables {w : Word} {s t : State} (h : runWord w s = .next t) : SameTables s t := by
  obtain ⟨v, p, o, hw⟩ := runWord_next w s
  cases hw.symm.trans h
  exact ⟨rfl, rfl, rfl⟩

/-- What the host collects is no part of the tables. -/
theorem State.collectText_sameTables (s : State) : SameTables s s.collectText := by
  unfold State.collectText
  split <;> exact ⟨rfl, rfl, rfl⟩

/-- A raw line that does not fault leaves the tables. -/
theorem runLine_sameTables {raw : Text} {s t : State} (h : runLine raw s = .next t) :
    SameTables s t := by
  obtain ⟨-, hl⟩ | ⟨-, hl⟩ | ⟨-, hl⟩ | ⟨w, v, -, hw, hl⟩ := runLine_cases raw s <;>
    cases hl.symm.trans h
  · exact ⟨rfl, rfl, rfl⟩
  · exact ⟨rfl, rfl, rfl⟩
  · obtain ⟨hopc, hfn, hregn⟩ := v.collectText_sameTables
    obtain ⟨hopc', hfn', hregn'⟩ := runWord_sameTables hw
    exact ⟨hopc.trans hopc', hfn.trans hfn', hregn.trans hregn'⟩

/-- The opening of a file leaves the tables. -/
theorem State.openFile_sameTables (s : State) (f : InputFile) : SameTables s (s.openFile f) := by
  cases f <;> exact ⟨rfl, rfl, rfl⟩

/-- Settles O48: each of the five items a step can meet leaves the tables. -/
theorem noStepWritesTheTables : Obligations.NoStepWritesTheTables := by
  intro s t h
  obtain ⟨_, ws, hw⟩ | ⟨hw, _, ls, hl⟩ | ⟨hw, hl⟩ | ⟨hw, hl, f, fs, hf⟩ | ⟨hw, hl, hf⟩ := item_cases s
  case inl => exact runWord_sameTables (s := { s with words := ws }) (step_word hw ▸ h)
  case inr.inl => exact runLine_sameTables (s := { s with lines := some ls }) (step_line hw hl ▸ h)
  case inr.inr.inl =>
    cases (step_close hw hl).symm.trans h
    exact ⟨rfl, rfl, rfl⟩
  case inr.inr.inr.inl =>
    cases (step_open hw hl hf).symm.trans h
    exact State.openFile_sameTables _ f
  case inr.inr.inr.inr => cases (step_idle hw hl hf).symm.trans h

/-- Settles O56: opening the file is one step of the host, which leaves the files after it. -/
theorem unreadableFileGivesNoticeAndGoesOn : Obligations.UnreadableFileGivesNoticeAndGoesOn := by
  intro s fs hw hl hf
  exact ⟨_, .unreadable, step_open hw hl hf, rfl, rfl, rfl, rfl, hl⟩

end Sys2Proof.Machine
end

section
/-! PROOFS of the statements of 30_encoding.md: the row of a word, decode and encode, the contents of the
dispatch tables, and the fields that are not printed. -/

namespace Sys2Proof.Machine

/-! ## The row of a word -/

/-- The word `w` has the row of mnemonic `m`: in R66 by its opcode, or in R67 by its function code under
opcode `000000`. -/
inductive HasRow (w : Word) (m : Mnemonic) : Prop
  | immediate {r : Renderer} (h : (opcodeOf w, .immediate m r) ∈ Claims.opcodeRows)
  | jump {r : Renderer} (h : (opcodeOf w, .jump m r) ∈ Claims.opcodeRows)
  | register {r : Renderer} (ho : opcodeOf w = 0b000000#6)
      (hf : (functOf w, ⟨m, r⟩) ∈ Claims.functRows)

/-- The entry of opcode `000000` is the register entry. -/
theorem opcEntry_opcRom_zero : opcEntry opcRom 0b000000#6 = some .register := rfl

/-- A word with a row decodes to the instruction of its row. -/
theorem HasRow.decode_eq {w : Word} {m : Mnemonic} (h : HasRow w m) :
    decode w = .instr (instrOf m w) := by
  cases h with
  | immediate h => simp [decode, decodeWith, (opcEntry_opcRom_eq_some_iff _ _).2 h]
  | jump h => simp [decode, decodeWith, (opcEntry_opcRom_eq_some_iff _ _).2 h]
  | register ho hf =>
    simp [decode, decodeWith, ho, opcEntry_opcRom_zero, (funEntry_funRom_eq_some_iff _ _).2 hf]

/-! ## Decode and encode -/

/-- The word of an instruction has the row of its mnemonic. -/
theorem hasRow_encode (i : Instr) : HasRow (encode i) (mnemonicOf i) := by
  cases i
  case add | sub | and | or | xor =>
    exact .register (r := .registerDefault) (opcodeOf_registerWord ..)
      (by simp [encode, mnemonicOf, Claims.functRows])
  case sll | srl =>
    exact .register (r := .registerShift) (opcodeOf_registerWord ..)
      (by simp [encode, mnemonicOf, Claims.functRows])
  case jr =>
    exact .register (r := .registerJump) (opcodeOf_registerWord ..)
      (by simp [encode, mnemonicOf, Claims.functRows])
  case lb | lh | lw | sb | sh | sw =>
    exact .immediate (r := .immediateMemory) (by simp [encode, mnemonicOf, Claims.opcodeRows])
  case addi | andi | ori | xori | liu =>
    exact .immediate (r := .immediateArithmetic) (by simp [encode, mnemonicOf, Claims.opcodeRows])
  case beq | bne =>
    exact .immediate (r := .immediateBranch) (by simp [encode, mnemonicOf, Claims.opcodeRows])
  case blez | bgtz =>
    exact .immediate (r := .immediateBranchSingle) (by simp [encode, mnemonicOf, Claims.opcodeRows])
  case j =>
    exact .jump (r := .jumpTarget) (by simp [encode, mnemonicOf, Claims.opcodeRows])

/-- The fields of an instruction are the slices of its word. -/
theorem instrOf_encode (i : Instr) : instrOf (mnemonicOf i) (encode i) = i := by
  cases i <;> simp [instrOf, mnemonicOf, encode]

/-- Settles O30: the word of an instruction has its row, and its slices are the operands. -/
theorem decodeEncodeIsIdentity : Obligations.DecodeEncodeIsIdentity := fun i =>
  calc decode (encode i) = .instr (instrOf (mnemonicOf i) (encode i)) := (hasRow_encode i).decode_eq
    _ = .instr i := by rw [instrOf_encode]

/-- Settles O31: the word on the port is the word that was driven, and it is also the word of the
instruction, which drives its own. -/
theorem encodeDecodeIsIdentity : Obligations.EncodeDecodeIsIdentity := by
  intro w i h
  have hword : runWord w State.reset = .next (State.reset.driveWord w) :=
    runWord_eq_driveWord reset_inv.rom w
  obtain ⟨f, m, r, hexec⟩ := exec_drives i State.reset
  have hinstr : runWord w State.reset = exec i State.reset := by
    simp [runWord, show decodeWith State.reset.opc State.reset.fn w = .instr i from h]
  have hnext := Host.Outcome.next.inj (hexec.symm.trans (hinstr.symm.trans hword))
  exact Option.some.inj (congrArg State.instr hnext)

/-- The word of an instruction, however it is written, decodes to the instruction. -/
theorem decode_of_encode_eq {i : Instr} {w : Word} (h : encode i = w) : decode w = .instr i :=
  h ▸ decodeEncodeIsIdentity i

/-- Settles O32: eight of the words are the words of what they stand for, and the other two have no row. -/
theorem sampleWordsDecode : Obligations.SampleWordsDecode :=
  ⟨decode_of_encode_eq rfl, decode_of_encode_eq rfl, decode_of_encode_eq rfl, decode_of_encode_eq rfl,
    decode_of_encode_eq rfl, decode_of_encode_eq rfl, decode_of_encode_eq rfl, decode_of_encode_eq rfl,
    rfl, rfl⟩

/-! ## The dispatch tables -/

/-- Under another opcode than `000000` the decoder does not look at `FUN`. -/
theorem decodeWith_opcRom_of_opcode_ne_zero {w : Word} (h : opcodeOf w ≠ 0b000000#6)
    (f f' : FunTable) : decodeWith opcRom f w = decodeWith opcRom f' w := by
  cases ho : opcEntry opcRom (opcodeOf w) with
  | none => simp [decodeWith, ho]
  | some entry =>
    cases entry with
    | register =>
      exact absurd (opcode_eq_zero_of_register_row ((opcEntry_opcRom_eq_some_iff _ _).1 ho)) h
    | immediate m r => simp [decodeWith, ho]
    | jump m r => simp [decodeWith, ho]

/-- The entries of `OPC` that are `none` are those of R68. -/
theorem opcEntry_opcRom_eq_none_iff : ∀ o : Opcode,
    opcEntry opcRom o = none ↔ o ∈ Claims.undefinedOpcodes := by
  decide

/-- The entries of `FUN` that are `none` are those of R69. -/
theorem funEntry_funRom_eq_none_iff : ∀ f : Funct,
    funEntry funRom f = none ↔ f ∈ Claims.undefinedFuncts := by
  decide

/-- Settles O33: the rows, their indices, and the entries that no row has. -/
theorem dispatchTablesHoldTheirRows : Obligations.DispatchTablesHoldTheirRows :=
  ⟨opcEntry_opcRom_eq_some_iff, funEntry_funRom_eq_some_iff, rfl, rfl, rfl, rfl,
    fun f _ h => decodeWith_opcRom_of_opcode_ne_zero h f funRom,
    opcEntry_opcRom_eq_none_iff, funEntry_funRom_eq_none_iff, rfl, rfl⟩

/-! ## Fields that are not printed -/

/-- The text and the flag of a renderer depend on the fields it prints alone. -/
theorem render_unresolved_of_samePrinted {r : Renderer} {w v : Word} (h : Claims.SamePrinted r w v)
    (t : RegNames) (m : Mnemonic) :
    unresolved t r w = unresolved t r v ∧ render t r m w = render t r m v := by
  cases r <;> rw [Claims.SamePrinted] at h <;>
    simp [unresolved, printedRegs, render, renderRegisterDefault, renderRegisterShift,
      renderRegisterJump, renderJumpTarget, renderImmediateMemory, renderImmediateArithmetic,
      renderImmediateBranch, renderImmediateBranchSingle, h]

/-- Words with the same opcode, and under a register entry the same function code, are both `OK` with the
same format, mnemonic and renderer, or both invalid with the same format and status. -/
theorem decodePorts_of_same_codes (opc : OpcTable) (fn : FunTable) (t : RegNames) {w v : Word}
    (ho : opcodeOf w = opcodeOf v)
    (hf : opcEntry opc (opcodeOf w) = some .register → functOf w = functOf v) :
    (∃ f m r, decodePorts opc fn t w = okPorts t w f m r ∧
      decodePorts opc fn t v = okPorts t v f m r) ∨
    (∃ f st, decodePorts opc fn t w = invalidPorts w f st ∧
      decodePorts opc fn t v = invalidPorts v f st) := by
  cases hw : opcEntry opc (opcodeOf w) with
  | none =>
    exact .inr ⟨_, _, decodePorts_invalidOpcode hw, decodePorts_invalidOpcode (ho ▸ hw)⟩
  | some entry =>
    cases entry with
    | immediate m r => exact .inl ⟨_, m, r, decodePorts_immediate hw, decodePorts_immediate (ho ▸ hw)⟩
    | jump m r => exact .inl ⟨_, m, r, decodePorts_jump hw, decodePorts_jump (ho ▸ hw)⟩
    | register =>
      have hfun := hf hw
      cases he : funEntry fn (functOf w) with
      | none =>
        exact .inr ⟨_, _, decodePorts_invalidFunct hw he,
          decodePorts_invalidFunct (ho ▸ hw) (hfun ▸ he)⟩
      | some e =>
        exact .inl ⟨_, _, _, decodePorts_register hw he, decodePorts_register (ho ▸ hw) (hfun ▸ he)⟩

/-- A driven word gives the outputs of R90's pseudocode with the tables of the spec. -/
theorem step_driven_ports {s : State} (hs : s.RomOk) {w : Word} {ws : List HostWord}
    (hw : s.words = .driven w :: ws) :
    ∃ t, step s = .next t ∧ t.ports = some (decodePorts opcRom funRom s.regn w) := by
  have hrun := runWord_eq_driveWord (s := { s with words := ws }) ⟨hs.opc, hs.fn⟩ w
  refine ⟨_, (step_word hw).trans hrun, ?_⟩
  rw [← hs.opc, ← hs.fn]
  rfl

/-- Settles O39: both words take the same branch of the pseudocode, and a renderer reads its printed
fields alone. -/
theorem unprintedFieldsChangeNothing : Obligations.UnprintedFieldsChangeNothing := by
  intro s s' w v ws ws' hs hs' hregn hw hv ho hf
  have hfunct : opcEntry opcRom (opcodeOf w) = some .register → functOf w = functOf v := fun h =>
    hf (opcode_eq_zero_of_register_row ((opcEntry_opcRom_eq_some_iff _ _).1 h))
  obtain ⟨t, hstep, hports⟩ := step_driven_ports hs hw
  obtain ⟨t', hstep', hports'⟩ := step_driven_ports hs' hv
  refine ⟨t, t', _, _, hstep, hstep', hports, hregn ▸ hports', ?_⟩
  obtain ⟨f, m, r, hpw, hpv⟩ | ⟨f, st, hpw, hpv⟩ :=
    decodePorts_of_same_codes opcRom funRom s.regn ho hfunct
  · rw [hpw, hpv]
    exact ⟨rfl, rfl, rfl, rfl, fun h => render_unresolved_of_samePrinted (h r rfl) s.regn m⟩
  · rw [hpw, hpv]
    exact ⟨rfl, rfl, rfl, rfl, fun _ => ⟨rfl, rfl⟩⟩

end Sys2Proof.Machine
end

section
/-! PROOFS of the statements of 40_decode_pipeline.md: the operands as text, the text of a renderer, the
flag, and the step as the decode of a word. -/

namespace Sys2Proof.Machine

/-! ## Register names and the immediate -/

theorem regText_of_name {t : RegNames} {r : RegIndex} {n : Text} (h : regName t r = some n) :
    regText t r = n := by
  simp [regText, h]

theorem regText_of_unnamed {t : RegNames} {r : RegIndex} (h : regName t r = none) :
    regText t r = '$' :: indexBits r := by
  simp [regText, h]

/-- Settles O34: the index of an unnamed register is printed bit by bit. -/
theorem registerTextIsNameOrBits : Obligations.RegisterTextIsNameOrBits := by
  refine ⟨fun t r n => regText_of_name, fun t r h => ?_, fun t => regText_of_unnamed,
    fun t => regText_of_unnamed⟩
  rw [regText_of_unnamed h]
  refine ⟨rfl, rfl, fun i hi => ?_⟩
  interval_cases i <;> rfl

/-- The converted immediate (R98) is the library's signed value. -/
theorem sintImm_eq_toInt (b : Imm16) : sintImm b = b.toInt :=
  (BitVec.toInt_eq_msb_cond b).symm

/-- Settles O36: the sign of a signed value is its top bit. -/
theorem immediateIsNegativeIffTopBit : Obligations.ImmediateIsNegativeIffTopBit := by
  intro b
  refine ⟨?_, fun h => if_pos h, fun h => if_neg (by simp [h]), sintImm_eq_toInt b⟩
  rw [sintImm_eq_toInt, BitVec.msb_eq_toInt, decide_eq_true_iff]

/-! ## Decimal text -/

theorem toNat_digitChar : ∀ d < 10, (digitChar d).toNat = 48 + d := by
  decide

/-- With fuel for its bits, a positive number's digits are the library's, the highest first. -/
theorem digitsAux_eq_digits {fuel n : Nat} (hpos : 0 < n) (hfuel : n < 2 ^ fuel) (acc : Text) :
    digitsAux fuel n acc = ((Nat.digits 10 n).map digitChar).reverse ++ acc := by
  induction fuel generalizing n acc with
  | zero => omega
  | succ fuel ih =>
    rw [digitsAux]
    split_ifs with hn
    · simp [Nat.digits_of_lt 10 n hpos.ne' hn]
    · rw [ih (by omega) (by omega), Nat.digits_def' (by omega) hpos]
      simp

theorem decNat_eq_digits {n : Nat} (hpos : 0 < n) :
    decNat n = ((Nat.digits 10 n).map digitChar).reverse := by
  rw [decNat, digitsAux_eq_digits hpos Nat.lt_log2_self, List.append_nil]

/-- A decimal text holds digits alone. -/
theorem isDigit_of_mem_decNat (n : Nat) : ∀ c ∈ decNat n, Claims.IsDigit c := by
  obtain rfl | hpos := n.eq_zero_or_pos
  · simp [decNat, digitsAux, digitChar, Claims.IsDigit]
  · intro c hc
    rw [decNat_eq_digits hpos, List.mem_reverse, List.mem_map] at hc
    obtain ⟨d, hd, rfl⟩ := hc
    have hlt : d < 10 := Nat.digits_lt_base (by omega) hd
    have hval := toNat_digitChar d hlt
    exact ⟨by omega, by omega⟩

/-- The first digit of a positive number is not zero. -/
theorem head?_decNat_ne_zero {n : Nat} (hpos : 0 < n) : (decNat n).head? ≠ some '0' := by
  have hne : Nat.digits 10 n ≠ [] := Nat.digits_ne_nil_iff_ne_zero.2 hpos.ne'
  have hlast := Nat.getLast_digit_ne_zero 10 hpos.ne'
  have hlt : (Nat.digits 10 n).getLast hne < 10 :=
    Nat.digits_lt_base (by omega) (List.getLast_mem hne)
  have hval := toNat_digitChar _ hlt
  rw [decNat_eq_digits hpos, List.head?_reverse, List.getLast?_map,
    List.getLast?_eq_some_getLast hne, Option.map_some]
  intro h
  rw [Option.some.inj h, show ('0' : Char).toNat = 48 from rfl] at hval
  omega

/-- The value of digits, the highest first, is that of the library, which takes the lowest first. -/
theorem digitsValue_reverse_map_digitChar {ds : List Nat} (h : ∀ d ∈ ds, d < 10) :
    Claims.digitsValue (ds.map digitChar).reverse = Nat.ofDigits 10 ds := by
  induction ds with
  | nil => rfl
  | cons d ds ih =>
    obtain ⟨hd, hds⟩ := List.forall_mem_cons.1 h
    have hfold := ih hds
    rw [Claims.digitsValue] at hfold
    simp only [Claims.digitsValue, List.map_cons, List.reverse_cons, List.foldl_concat, hfold,
      toNat_digitChar d hd, Nat.ofDigits_cons]
    omega

/-- A decimal text denotes its number. -/
theorem digitsValue_decNat {n : Nat} (hpos : 0 < n) : Claims.digitsValue (decNat n) = n := by
  rw [decNat_eq_digits hpos,
    digitsValue_reverse_map_digitChar fun d hd => Nat.digits_lt_base (by omega) hd,
    Nat.ofDigits_digits]

/-- Settles O37: the digits of a positive number are the library's, and a negative number is written by
its absolute value. -/
theorem decimalTextIsCanonical : Obligations.DecimalTextIsCanonical := by
  refine ⟨rfl, fun n hpos => ⟨isDigit_of_mem_decNat n, head?_decNat_ne_zero hpos,
    digitsValue_decNat hpos⟩, fun n hpos => ?_, fun _ => rfl⟩
  cases n with
  | zero => omega
  | succ n => rfl

/-! ## The text of a renderer, piece by piece -/

/-- The pieces that a renderer puts together (R78 to R85). -/
def renderPieces (t : RegNames) (r : Renderer) (m : Mnemonic) (w : Word) : List Text :=
  match r with
  | .registerDefault => [mnemonicText m, " ".toList, regText t (rdOf w), ", ".toList,
      regText t (rsOf w), ", ".toList, regText t (rtOf w)]
  | .registerShift => [mnemonicText m, " ".toList, regText t (rtOf w), ", ".toList,
      regText t (rdOf w), ", ".toList, shamtText (shamtOf w)]
  | .registerJump => ["jr ".toList, regText t (rsOf w)]
  | .jumpTarget => ["j ".toList, addressText (addressOf w)]
  | .immediateMemory => [mnemonicText m, ", ".toList, regText t (rtOf w), ", ".toList,
      immText (immOf w), "(".toList, regText t (rsOf w), ")".toList]
  | .immediateArithmetic => [mnemonicText m, ", ".toList, regText t (rtOf w), ", ".toList,
      regText t (rsOf w), ", ".toList, immText (immOf w)]
  | .immediateBranch => [mnemonicText m, ", ".toList, regText t (rsOf w), ", ".toList,
      regText t (rtOf w), ", ".toList, immText (immOf w)]
  | .immediateBranchSingle => [mnemonicText m, " ".toList, regText t (rsOf w), ", ".toList,
      immText (immOf w)]

/-- What a renderer gives is its pieces in order. -/
theorem render_eq_flatten (t : RegNames) (r : Renderer) (m : Mnemonic) (w : Word) :
    render t r m w = (renderPieces t r m w).flatten := by
  cases r <;>
    simp [render, renderPieces, renderRegisterDefault, renderRegisterShift, renderRegisterJump,
      renderJumpTarget, renderImmediateMemory, renderImmediateArithmetic, renderImmediateBranch,
      renderImmediateBranchSingle]

/-- The text of each printed register field is a piece. -/
theorem regText_mem_renderPieces (t : RegNames) (r : Renderer) (m : Mnemonic) (w : Word) :
    ∀ f ∈ printedRegs r w, regText t f ∈ renderPieces t r m w := by
  cases r <;> simp [printedRegs, renderPieces]

/-- The fields that are printed, read from the ports, are those read from the word. -/
theorem printedFields_okPorts (t : RegNames) (w : Word) (f : Format) (m : Mnemonic) (r r' : Renderer) :
    Claims.printedFields r' (okPorts t w f m r) = printedRegs r' w := by
  cases r' <;> rfl

/-- The flag is set exactly when a printed field has no name. -/
theorem unresolved_eq_true_iff (t : RegNames) (r : Renderer) (w : Word) :
    unresolved t r w = true ↔ ∃ f ∈ printedRegs r w, regName t f = none := by
  simp [unresolved, unnamed]

/-- Settles O35: in the ports of an `OK` word the flag and the text are those of the printed fields, and
an invalid word has no renderer. -/
theorem unresolvedFlagsPrintedFieldsOnly : Obligations.UnresolvedFlagsPrintedFieldsOnly := by
  intro s w ws hs hw
  obtain ⟨t, hstep, hports⟩ := step_driven_ports hs hw
  refine ⟨t, _, hstep, hports, ?_⟩
  obtain ⟨f, m, r, hp⟩ | ⟨f, st, -, hp⟩ := decodePorts_cases opcRom funRom s.regn w <;> rw [hp]
  · refine ⟨fun r' hr => ?_, nofun⟩
    obtain rfl : r = r' := Option.some.inj hr
    rw [printedFields_okPorts]
    refine ⟨rfl, unresolved_eq_true_iff s.regn r w, fun g hg => ?_⟩
    rw [okPorts, render_eq_flatten]
    exact List.infix_of_mem_flatten (regText_mem_renderPieces s.regn r m w g hg)
  · exact ⟨nofun, fun _ => rfl⟩

/-! ## The size and the characters of the text -/

/-- A printable ASCII character (R105). -/
def isPrintable (c : Char) : Bool :=
  0x20 ≤ c.toNat && c.toNat ≤ 0x7E

theorem isPrintable_iff (c : Char) : isPrintable c = true ↔ 0x20 ≤ c.toNat ∧ c.toNat ≤ 0x7E := by
  simp [isPrintable]

/-- `x` has between `lo` and `hi` characters, all printable ASCII. -/
structure PrintableLine (lo hi : Nat) (x : Text) : Prop where
  lo_le : lo ≤ x.length
  le_hi : x.length ≤ hi
  printable : x.all isPrintable = true

theorem PrintableLine.append {lo hi lo' hi' : Nat} {x y : Text} (hx : PrintableLine lo hi x)
    (hy : PrintableLine lo' hi' y) : PrintableLine (lo + lo') (hi + hi') (x ++ y) where
  lo_le := List.length_append ▸ Nat.add_le_add hx.lo_le hy.lo_le
  le_hi := List.length_append ▸ Nat.add_le_add hx.le_hi hy.le_hi
  printable := by rw [List.all_append, hx.printable, hy.printable, Bool.and_self]

theorem PrintableLine.widen {lo hi lo' hi' : Nat} {x : Text} (h : PrintableLine lo hi x)
    (hlo : lo' ≤ lo) (hhi : hi ≤ hi') : PrintableLine lo' hi' x where
  lo_le := hlo.trans h.lo_le
  le_hi := h.le_hi.trans hhi
  printable := h.printable

theorem printableLine_mnemonicText (m : Mnemonic) : PrintableLine 1 4 (mnemonicText m) := by
  cases m <;> exact ⟨by decide, by decide, rfl⟩

/-- A name in a table that REG_NAMES may be is one of the 17 names. -/
theorem mem_registerNameSet_of_wf {t : RegNames} (ht : t.wf = true) {r : RegIndex} {n : Text}
    (h : regName t r = some n) : n ∈ registerNameSet := by
  have hperm : (t.toList.filterMap id).Perm registerNameSet :=
    List.isPerm_iff.1 (Bool.and_eq_true _ _ ▸ ht).2
  have hmem : some n ∈ t.toList := h ▸ Vector.mem_toList_iff.2 (Vector.getElem_mem r.isLt)
  exact hperm.mem_iff.1 (List.mem_filterMap.2 ⟨_, hmem, rfl⟩)

theorem printableLine_of_mem_registerNameSet {n : Text} (h : n ∈ registerNameSet) :
    PrintableLine 3 5 n := by
  have hall : ∀ n ∈ registerNameSet, 3 ≤ n.length ∧ n.length ≤ 5 ∧ n.all isPrintable = true := by
    decide
  obtain ⟨hlo, hhi, hchars⟩ := hall n h
  exact ⟨hlo, hhi, hchars⟩

theorem isPrintable_bitChar (b : Bool) : isPrintable (bitChar b) = true := by
  cases b <;> rfl

theorem printableLine_regText {t : RegNames} (ht : t.wf = true) (r : RegIndex) :
    PrintableLine 3 6 (regText t r) := by
  cases h : regName t r with
  | some n =>
    rw [regText_of_name h]
    exact printableLine_of_mem_registerNameSet (mem_registerNameSet_of_wf ht h)
      |>.widen (by omega) (by omega)
  | none =>
    have hchars : ('$' :: indexBits r).all isPrintable = true := by
      simp [indexBits, isPrintable_bitChar, show isPrintable '$' = true from rfl]
    rw [regText_of_unnamed h]
    exact ⟨by simp [indexBits], by simp [indexBits], hchars⟩

/-- A number below `10 ^ k` has at most `k` digits. -/
theorem printableLine_decNat {n k : Nat} (hk : 0 < k) (h : n < 10 ^ k) :
    PrintableLine 1 k (decNat n) := by
  have hchars : (decNat n).all isPrintable = true := List.all_eq_true.2 fun c hc => by
    obtain ⟨hlow, hhigh⟩ := isDigit_of_mem_decNat n c hc
    exact (isPrintable_iff c).2 ⟨by omega, by omega⟩
  obtain rfl | hpos := n.eq_zero_or_pos
  · exact ⟨Nat.le_refl 1, hk, hchars⟩
  · have hlen : (decNat n).length = (Nat.digits 10 n).length := by simp [decNat_eq_digits hpos]
    exact ⟨hlen ▸ List.length_pos_iff.2 (Nat.digits_ne_nil_iff_ne_zero.2 hpos.ne'),
      hlen ▸ (Nat.digits_length_le_iff (by omega) n).2 h, hchars⟩

/-- An immediate has a sign and five digits at most. -/
theorem printableLine_immText (imm : Imm16) : PrintableLine 1 6 (immText imm) := by
  have hlo : -32768 ≤ sintImm imm := sintImm_eq_toInt imm ▸ BitVec.le_toInt imm
  have hhi : sintImm imm < 32768 := sintImm_eq_toInt imm ▸ BitVec.toInt_lt
  rw [immText]
  cases h : sintImm imm with
  | ofNat n =>
    rw [h, Int.ofNat_eq_natCast] at hhi
    exact printableLine_decNat (k := 5) (by omega) (by omega) |>.widen (by omega) (by omega)
  | negSucc n =>
    have hminus : PrintableLine 1 1 ['-'] := ⟨by decide, by decide, rfl⟩
    exact hminus.append (printableLine_decNat (n := n + 1) (k := 5) (by omega) (by omega))
      |>.widen (by omega) (by omega)

theorem printableLine_shamtText (a : Shamt) : PrintableLine 1 2 (shamtText a) :=
  printableLine_decNat (by omega) (by omega)

theorem printableLine_addressText (a : Addr26) : PrintableLine 1 8 (addressText a) :=
  printableLine_decNat (by omega) (by omega)

/-- The text of an `OK` word has 3 to 28 printable characters: the parts of each renderer, added up. -/
theorem printableLine_render {t : RegNames} (ht : t.wf = true) (r : Renderer) (m : Mnemonic)
    (w : Word) : PrintableLine 3 28 (render t r m w) := by
  have hm := printableLine_mnemonicText m
  have hreg := printableLine_regText ht
  have himm := printableLine_immText (immOf w)
  have hspace : PrintableLine 1 1 " ".toList := ⟨by decide, by decide, rfl⟩
  have hcomma : PrintableLine 2 2 ", ".toList := ⟨by decide, by decide, rfl⟩
  cases r with
  | registerDefault =>
    exact hm.append hspace |>.append (hreg _) |>.append hcomma |>.append (hreg _)
      |>.append hcomma |>.append (hreg _) |>.widen (by omega) (by omega)
  | registerShift =>
    exact hm.append hspace |>.append (hreg _) |>.append hcomma |>.append (hreg _)
      |>.append hcomma |>.append (printableLine_shamtText _) |>.widen (by omega) (by omega)
  | registerJump =>
    have hjr : PrintableLine 3 3 "jr ".toList := ⟨by decide, by decide, rfl⟩
    exact hjr.append (hreg _) |>.widen (by omega) (by omega)
  | jumpTarget =>
    have hj : PrintableLine 2 2 "j ".toList := ⟨by decide, by decide, rfl⟩
    exact hj.append (printableLine_addressText _) |>.widen (by omega) (by omega)
  | immediateMemory =>
    have hopen : PrintableLine 1 1 "(".toList := ⟨by decide, by decide, rfl⟩
    have hclose : PrintableLine 1 1 ")".toList := ⟨by decide, by decide, rfl⟩
    exact hm.append hcomma |>.append (hreg _) |>.append hcomma |>.append himm
      |>.append hopen |>.append (hreg _) |>.append hclose |>.widen (by omega) (by omega)
  | immediateArithmetic | immediateBranch =>
    exact hm.append hcomma |>.append (hreg _) |>.append hcomma |>.append (hreg _)
      |>.append hcomma |>.append himm |>.widen (by omega) (by omega)
  | immediateBranchSingle =>
    exact hm.append hspace |>.append (hreg _) |>.append hcomma |>.append himm
      |>.widen (by omega) (by omega)

theorem printableLine_invalidText : PrintableLine 3 28 invalidText :=
  ⟨by decide, by decide, rfl⟩

/-- Under the invariant, ports that are produced are those the pseudocode gives for some word. -/
theorem State.Inv.exists_decodePorts {s : State} (hs : s.Inv) {p : Ports} (hp : s.ports = some p) :
    ∃ w, decodePorts s.opc s.fn s.regn w = p := by
  have hfollow := hs.follow
  cases hw : s.instr with
  | none => simp [State.PortsFollowInput, hw, hp] at hfollow
  | some w => exact ⟨w, Option.some.inj ((hs.ports_eq hw).symm.trans hp)⟩

/-- What the pseudocode gives for a word under the tables of the spec and the default REG_NAMES is what
every such word prints. -/
theorem prints_of_decodePorts {w : Word} {x : Text} {u : Bool}
    (hstatus : (decodePorts opcRom funRom defaultRegNames w).status = .ok)
    (htext : (decodePorts opcRom funRom defaultRegNames w).text = x)
    (hflag : (decodePorts opcRom funRom defaultRegNames w).regUnresolved = u) :
    Claims.Prints w x u := by
  intro s ws hs hregn hw
  obtain ⟨t, hstep, hports⟩ := step_driven_ports hs hw
  exact ⟨t, _, hstep, hregn ▸ hports, hstatus, htext, hflag⟩

/-- Settles O38: under the invariant the text is that of a renderer or of an invalid word, and the two
words of the spec reach the bounds. -/
theorem textIsShortPrintableLine : Obligations.TextIsShortPrintableLine := by
  refine ⟨fun s p hs hp => ?_, prints_of_decodePorts rfl rfl rfl, rfl,
    prints_of_decodePorts rfl rfl rfl, rfl⟩
  suffices hline : PrintableLine 3 28 p.text from ⟨hline.lo_le, hline.le_hi, fun c hc =>
    (isPrintable_iff c).1 (List.all_eq_true.1 hline.printable c hc)⟩
  obtain ⟨w, rfl⟩ := hs.exists_decodePorts hp
  obtain ⟨f, m, r, h⟩ | ⟨f, st, -, h⟩ := decodePorts_cases s.opc s.fn s.regn w <;> rw [h]
  · exact printableLine_render hs.names r m w
  · exact printableLine_invalidText

/-! ## The step -/

/-- Settles O40: the pseudocode's branch for an opcode without an entry, which R68 lists. -/
theorem undefinedOpcodeGivesInvalidOpcode : Obligations.UndefinedOpcodeGivesInvalidOpcode := by
  intro s w ws hs hw
  refine ⟨hs.opc ▸ (opcEntry_opcRom_eq_none_iff (opcodeOf w)).symm, fun hmem => ?_⟩
  obtain ⟨t, hstep, hports⟩ := step_driven_ports hs hw
  refine ⟨t, _, hstep, hports, ?_⟩
  rw [decodePorts_invalidOpcode ((opcEntry_opcRom_eq_none_iff _).2 hmem)]
  exact ⟨rfl, rfl, rfl, rfl, rfl, rfl, rfl⟩

/-- Settles O42: the step puts the word on the port, and the word drives the outputs of the
pseudocode. -/
theorem stepDrivesDecodeOfTheWord : Obligations.StepDrivesDecodeOfTheWord := by
  intro s h ws hs hw
  exact (step_word hw).trans (runWord_eq_driveWord (s := { s with words := ws }) ⟨hs.opc, hs.fn⟩ _)

/-- With the tables of the spec, a word that decodes to an instruction runs it. -/
theorem runWord_of_decode {s : State} (hs : s.RomOk) {w : Word} {i : Instr}
    (h : decode w = .instr i) : runWord w s = exec i s := by
  rw [decode, ← hs.opc, ← hs.fn] at h
  rw [runWord, h]

/-- A raw line that holds a word runs it, and the host collects its text. -/
theorem runLine_of_lineIsWord {raw : Text} (h : lineIsWord (trim raw) = true) (s : State) :
    runLine raw s = collectNext (runWord (wordOfLine (trim raw)) s) := by
  obtain ⟨hkept, hbin⟩ : lineKept (trim raw) = true ∧ (trim raw).all isBinary = true :=
    (Bool.and_eq_true _ _).mp h
  rw [runLine, classifyLine, if_pos hkept, if_pos hbin]

/-- Settles O41: the next item is the word, driven or on its line, and the word runs its instruction. -/
theorem stepRunsTheDecodedInstruction : Obligations.StepRunsTheDecodedInstruction := by
  constructor
  · intro s h ws i hs hw hi
    rw [step_word hw, runWord_of_decode (s := { s with words := ws }) ⟨hs.opc, hs.fn⟩ hi]
  · intro s l ls i hs ⟨hw, hl⟩ hword hi
    rw [step_line hw hl, runLine_of_lineIsWord hword, runWord_of_decode (hs.setLines _) hi]

/-- Settles O49: an instruction drives its word, and driving a word changes the port fields and the
outcome alone. -/
theorem everyInstructionLeavesTheRest : Obligations.EveryInstructionLeavesTheRest := by
  intro i s
  obtain ⟨f, m, r, h⟩ := exec_drives i s
  exact ⟨_, h, rfl, rfl, rfl, rfl, rfl, rfl, rfl, rfl, rfl, rfl⟩

end Sys2Proof.Machine
end

section
/-! PROOFS of the statements of 41_register_format.md: the words of a row of spec/opcode_table.json, the
ports of a register word, and opcode `000000` with its function codes. -/

namespace Sys2Proof.Machine

/-! ## The words of a row -/

/-- The register layout over the slices of a word is the word exactly when the word has opcode `000000`
and the layout's function code under the mask. -/
theorem registerWord_slices_eq_iff (w : Word) (fn : Funct) :
    registerWord (rsOf w) (rtOf w) (rdOf w) (shamtOf w) fn = w ↔
      w &&& 0xFC00003F#32 = 0b000000#6 ++ (0#20 : BitVec 20) ++ fn := by
  rw [and_registerMask_eq_iff]
  constructor
  · intro h
    exact ⟨(congrArg opcodeOf h).symm.trans (opcodeOf_registerWord ..),
      (congrArg functOf h).symm.trans (functOf_registerWord ..)⟩
  · rintro ⟨hopcode, rfl⟩
    exact registerWord_slices w hopcode

/-- The immediate layout over the slices of a word is the word exactly when the word has the layout's
opcode under the mask. -/
theorem immediateWord_slices_eq_iff (w : Word) (op : Opcode) :
    immediateWord op (rsOf w) (rtOf w) (immOf w) = w ↔
      w &&& 0xFC000000#32 = jumpWord op 0#26 := by
  rw [and_opcodeMask_eq_iff]
  constructor
  · intro h
    exact (congrArg opcodeOf h).symm.trans (opcodeOf_immediateWord ..)
  · rintro rfl
    exact immediateWord_slices w

/-- The jump layout over the address of a word is the word exactly when the word has the layout's opcode
under the mask. -/
theorem jumpWord_slices_eq_iff (w : Word) (op : Opcode) :
    jumpWord op (addressOf w) = w ↔ w &&& 0xFC000000#32 = jumpWord op 0#26 := by
  rw [and_opcodeMask_eq_iff]
  constructor
  · intro h
    exact (congrArg opcodeOf h).symm.trans (opcodeOf_jumpWord ..)
  · rintro rfl
    exact jumpWord_slices w

/-- A word is the word of the instruction that a mnemonic reads from it exactly when it matches the row
of the mnemonic. -/
theorem encode_instrOf_eq_iff (m : Mnemonic) (w : Word) :
    encode (instrOf m w) = w ↔ w &&& rowMask m = rowMatch m := by
  cases m
  case add | sub | and | or | xor | sll | srl | jr => exact registerWord_slices_eq_iff w _
  case lb | lh | lw | sb | sh | sw | addi | andi | ori | xori | liu | beq | bne | blez | bgtz =>
    exact immediateWord_slices_eq_iff w _
  case j => exact jumpWord_slices_eq_iff w _

/-- A word decodes to the instruction of a mnemonic exactly when it matches the row of the mnemonic. -/
theorem decode_eq_instrOf_iff (m : Mnemonic) (w : Word) :
    decode w = .instr (instrOf m w) ↔ w &&& rowMask m = rowMatch m :=
  Iff.trans ⟨encodeDecodeIsIdentity w _, decode_of_encode_eq⟩ (encode_instrOf_eq_iff m w)

/-! ## The ports of a register word -/

section RegisterWord
variable (s : State) (rs rt rd : RegIndex) (shamt : Shamt) (fn : Funct) (m : Mnemonic)

/-- Driving a register word drives the ports that its operands give. -/
theorem State.drive_registerWord (r : Renderer) :
    s.drive (registerWord rs rt rd shamt fn) .register m r =
      Claims.driven s (registerWord rs rt rd shamt fn)
        (Claims.registerPorts rs rt rd shamt fn m r
          (unresolved s.regn r (registerWord rs rt rd shamt fn))
          (render s.regn r m (registerWord rs rt rd shamt fn))) := by
  simp [State.drive, Claims.driven, okPorts, Claims.registerPorts, sextImm]

/-- register-default prints rd, rs and rt (R78), and flags those three (R103). -/
theorem State.drive_registerDefault :
    s.drive (registerWord rs rt rd shamt fn) .register m .registerDefault =
      Claims.driven s (registerWord rs rt rd shamt fn)
        (Claims.registerPorts rs rt rd shamt fn m .registerDefault
          ((regName s.regn rd).isNone || (regName s.regn rs).isNone || (regName s.regn rt).isNone)
          (mnemonicText m ++ " ".toList ++ regText s.regn rd ++ ", ".toList ++ regText s.regn rs ++
            ", ".toList ++ regText s.regn rt)) := by
  simp [State.drive_registerWord, unresolved, printedRegs, unnamed, render, renderRegisterDefault,
    Bool.or_assoc]

/-- register-shift prints rt, rd and shamt (R79), and flags rt and rd (R103). -/
theorem State.drive_registerShift :
    s.drive (registerWord rs rt rd shamt fn) .register m .registerShift =
      Claims.driven s (registerWord rs rt rd shamt fn)
        (Claims.registerPorts rs rt rd shamt fn m .registerShift
          ((regName s.regn rt).isNone || (regName s.regn rd).isNone)
          (mnemonicText m ++ " ".toList ++ regText s.regn rt ++ ", ".toList ++ regText s.regn rd ++
            ", ".toList ++ decNat shamt.toNat)) := by
  simp [State.drive_registerWord, unresolved, printedRegs, unnamed, render, renderRegisterShift,
    shamtText]

/-- register-jump prints rs alone (R80), and flags it (R103). -/
theorem State.drive_registerJump :
    s.drive (registerWord rs rt rd shamt fn) .register m .registerJump =
      Claims.driven s (registerWord rs rt rd shamt fn)
        (Claims.registerPorts rs rt rd shamt fn m .registerJump (regName s.regn rs).isNone
          ("jr ".toList ++ regText s.regn rs)) := by
  simp [State.drive_registerWord, unresolved, printedRegs, unnamed, render, renderRegisterJump]

end RegisterWord

/-! ## Opcode `000000` -/

/-- What holds of the pseudocode's ports for the next word holds of the ports after the step. -/
theorem stepPorts_of_decodePorts {s : State} (hs : s.RomOk) {w : Word} {ws : List HostWord}
    (hw : s.words = .driven w :: ws) {P : Ports → Prop}
    (h : P (decodePorts opcRom funRom s.regn w)) : Claims.StepPorts s P := by
  obtain ⟨t, hstep, hports⟩ := step_driven_ports hs hw
  exact ⟨t, _, hstep, hports, h⟩

/-- A function code is undefined (R69) exactly when it has no row in R67. -/
theorem mem_undefinedFuncts_iff (f : Funct) :
    f ∈ Claims.undefinedFuncts ↔ ∀ row ∈ Claims.functRows, f ≠ row.1 := by
  rw [← funEntry_funRom_eq_none_iff, Option.eq_none_iff_forall_ne_some]
  constructor
  · rintro h ⟨f, e⟩ hrow rfl
    exact h e ((funEntry_funRom_eq_some_iff f e).2 hrow)
  · intro h e he
    exact h (f, e) ((funEntry_funRom_eq_some_iff f e).1 he) rfl

/-- Settles O25: under the register entry the pseudocode's branch is that of the function code's entry. -/
theorem registerOpcodeFollowsFunctionCode : Obligations.RegisterOpcodeFollowsFunctionCode := by
  intro s w ws hs hw hopcode
  have hentry : opcEntry opcRom (opcodeOf w) = some .register := hopcode ▸ opcEntry_opcRom_zero
  refine ⟨?_, fun hmem => ?_, mem_undefinedFuncts_iff (functOf w)⟩
  · rintro ⟨_, e⟩ hrow rfl
    have hfun := (funEntry_funRom_eq_some_iff _ _).2 hrow
    apply stepPorts_of_decodePorts hs hw
    rw [decodePorts_register hentry hfun]
    exact ⟨rfl, rfl, rfl, rfl⟩
  · have hfun := (funEntry_funRom_eq_none_iff _).2 hmem
    refine ⟨hs.fn ▸ hfun, stepPorts_of_decodePorts hs hw ?_⟩
    rw [decodePorts_invalidFunct hentry hfun]
    exact ⟨rfl, rfl, rfl, rfl, rfl, rfl⟩

/-! ## The eight instructions

Each drives the register word of its operands with its renderer, and its words are those of its row. -/

/-- Settles O1: `add` prints by register-default, at any shamt (R121's corner case). -/
theorem addDrivesItsPorts : Obligations.AddDrivesItsPorts :=
  ⟨fun rs rt rd shamt s => congrArg _ (s.drive_registerDefault rs rt rd shamt 0b100000#6 .add),
    decode_eq_instrOf_iff .add, rfl, rfl, prints_of_decodePorts rfl rfl rfl,
    prints_of_decodePorts rfl rfl rfl, prints_of_decodePorts rfl rfl rfl⟩

/-- Settles O2: `sub` prints by register-default. -/
theorem subDrivesItsPorts : Obligations.SubDrivesItsPorts :=
  ⟨fun rs rt rd shamt s => congrArg _ (s.drive_registerDefault rs rt rd shamt 0b100010#6 .sub),
    decode_eq_instrOf_iff .sub, rfl, rfl, prints_of_decodePorts rfl rfl rfl⟩

/-- Settles O3: `and` prints by register-default. -/
theorem andDrivesItsPorts : Obligations.AndDrivesItsPorts :=
  ⟨fun rs rt rd shamt s => congrArg _ (s.drive_registerDefault rs rt rd shamt 0b100100#6 .and),
    decode_eq_instrOf_iff .and, rfl, rfl, prints_of_decodePorts rfl rfl rfl⟩

/-- Settles O4: `or` prints by register-default, and alone of its renderer has two letters. -/
theorem orDrivesItsPorts : Obligations.OrDrivesItsPorts :=
  ⟨fun rs rt rd shamt s => congrArg _ (s.drive_registerDefault rs rt rd shamt 0b100101#6 .or),
    decode_eq_instrOf_iff .or, rfl, rfl, prints_of_decodePorts rfl rfl rfl, rfl, by decide⟩

/-- Settles O5: `xor` prints by register-default. -/
theorem xorDrivesItsPorts : Obligations.XorDrivesItsPorts :=
  ⟨fun rs rt rd shamt s => congrArg _ (s.drive_registerDefault rs rt rd shamt 0b100110#6 .xor),
    decode_eq_instrOf_iff .xor, rfl, rfl, prints_of_decodePorts rfl rfl rfl⟩

/-- Settles O6: `sll` prints by register-shift, at any rs, and the word of zeros is one of its words. -/
theorem sllDrivesItsPorts : Obligations.SllDrivesItsPorts :=
  ⟨fun rs rt rd shamt s => congrArg _ (s.drive_registerShift rs rt rd shamt 0b000000#6 .sll),
    decode_eq_instrOf_iff .sll, rfl, rfl, prints_of_decodePorts rfl rfl rfl,
    prints_of_decodePorts rfl rfl rfl, prints_of_decodePorts rfl rfl rfl⟩

/-- Settles O7: `srl` prints by register-shift. -/
theorem srlDrivesItsPorts : Obligations.SrlDrivesItsPorts :=
  ⟨fun rs rt rd shamt s => congrArg _ (s.drive_registerShift rs rt rd shamt 0b000010#6 .srl),
    decode_eq_instrOf_iff .srl, rfl, rfl, prints_of_decodePorts rfl rfl rfl,
    prints_of_decodePorts rfl rfl rfl⟩

/-- Settles O8: `jr` prints by register-jump, at any rt, rd and shamt. -/
theorem jrDrivesItsPorts : Obligations.JrDrivesItsPorts :=
  ⟨fun rs rt rd shamt s => congrArg _ (s.drive_registerJump rs rt rd shamt 0b001000#6 .jr),
    decode_eq_instrOf_iff .jr, rfl, rfl, prints_of_decodePorts rfl rfl rfl,
    prints_of_decodePorts rfl rfl rfl, prints_of_decodePorts rfl rfl rfl⟩

end Sys2Proof.Machine
end

section
/-! PROOFS of the statements of 42_immediate_memory.md: the ports of an immediate word, the renderer
immediate-memory, and the six instructions that print by it. -/

namespace Sys2Proof.Machine

/-! ## The ports of an immediate word -/

/-- The immediate is printed as its signed value (R71). -/
theorem immText_eq_decInt_toInt (imm : Imm16) : immText imm = decInt imm.toInt := by
  rw [immText, sintImm_eq_toInt]

/-- Driving an immediate word drives the ports that its operands give. -/
theorem State.drive_immediateWord (s : State) (op : Opcode) (rs rt : RegIndex) (imm : Imm16)
    (m : Mnemonic) (r : Renderer) :
    s.drive (immediateWord op rs rt imm) .immediate m r =
      Claims.driven s (immediateWord op rs rt imm)
        (Claims.immediatePorts op rs rt imm m r
          (unresolved s.regn r (immediateWord op rs rt imm))
          (render s.regn r m (immediateWord op rs rt imm))) := by
  simp [State.drive, Claims.driven, okPorts, Claims.immediatePorts, sextImm]

/-- A driven word of an immediate row gives the ports of an `OK` word with the row's mnemonic and
renderer. -/
theorem stepPorts_of_immediate_row {s : State} (hs : s.RomOk) {w : Word} {ws : List HostWord}
    (hw : s.words = .driven w :: ws) {m : Mnemonic} {r : Renderer}
    (hrow : (opcodeOf w, .immediate m r) ∈ Claims.opcodeRows) {P : Ports → Prop}
    (h : P (okPorts s.regn w .immediate m r)) : Claims.StepPorts s P := by
  apply stepPorts_of_decodePorts hs hw
  rwa [decodePorts_immediate ((opcEntry_opcRom_eq_some_iff _ _).2 hrow)]

/-! ## The renderer immediate-memory -/

/-- immediate-memory prints rt, the signed offset and rs in parentheses (R82). -/
theorem render_immediateMemory (t : RegNames) (m : Mnemonic) (w : Word) :
    render t .immediateMemory m w = mnemonicText m ++ ", ".toList ++ regText t (rtOf w) ++
      ", ".toList ++ decInt (immOf w).toInt ++ "(".toList ++ regText t (rsOf w) ++ ")".toList := by
  rw [render, renderImmediateMemory, immText_eq_decInt_toInt]

/-- immediate-memory flags rt and rs (R103). -/
theorem unresolved_immediateMemory (t : RegNames) (w : Word) :
    unresolved t .immediateMemory w =
      ((regName t (rtOf w)).isNone || (regName t (rsOf w)).isNone) := by
  simp [unresolved, printedRegs, unnamed]

/-- An immediate word driven with immediate-memory has the text and the flag of its operands. -/
theorem State.drive_immediateMemory (s : State) (op : Opcode) (rs rt : RegIndex) (imm : Imm16)
    (m : Mnemonic) :
    s.drive (immediateWord op rs rt imm) .immediate m .immediateMemory =
      Claims.driven s (immediateWord op rs rt imm)
        (Claims.immediatePorts op rs rt imm m .immediateMemory
          ((regName s.regn rt).isNone || (regName s.regn rs).isNone)
          (mnemonicText m ++ ", ".toList ++ regText s.regn rt ++ ", ".toList ++ decInt imm.toInt ++
            "(".toList ++ regText s.regn rs ++ ")".toList)) := by
  rw [State.drive_immediateWord, unresolved_immediateMemory, render_immediateMemory,
    rsOf_immediateWord, rtOf_immediateWord, immOf_immediateWord]

/-! ## The memory family -/

/-- Each memory opcode has a row of R66 with a memory mnemonic and immediate-memory. -/
theorem exists_memory_row :
    ∀ o ∈ [0b100000#6, 0b100001#6, 0b100011#6, 0b101000#6, 0b101001#6, 0b101011#6],
      ∃ m ∈ [Mnemonic.lb, .lh, .lw, .sb, .sh, .sw],
        (o, .immediate m .immediateMemory) ∈ Claims.opcodeRows := by
  decide

/-- Settles O26: the opcode's row gives the mnemonic and the renderer, and the renderer gives the text
and the flag. -/
theorem memoryFamilyPrintsOffsetAndBase : Obligations.MemoryFamilyPrintsOffsetAndBase := by
  intro s w ws hs hw hopcode
  have hlo : -32768 ≤ (immOf w).toInt := BitVec.le_toInt _
  have hhi : (immOf w).toInt < 32768 := BitVec.toInt_lt
  obtain ⟨m, hmem, hrow⟩ := exists_memory_row _ hopcode
  exact ⟨hlo, Int.le_of_lt_add_one hhi, rfl, stepPorts_of_immediate_row hs hw hrow
    ⟨rfl, rfl, rfl, unresolved_immediateMemory s.regn w, m, rfl, hmem,
      render_immediateMemory s.regn m w⟩⟩

/-! ## The six instructions

Each drives the immediate word of its operands with immediate-memory, and its words are those of its
row. -/

/-- Settles O9: `lb` prints by immediate-memory, and `0xFFFF` is the offset -1. -/
theorem lbDrivesItsPorts : Obligations.LbDrivesItsPorts :=
  ⟨fun rs rt imm s => congrArg _ (s.drive_immediateMemory 0b100000#6 rs rt imm .lb),
    decode_eq_instrOf_iff .lb, rfl, rfl, prints_of_decodePorts rfl rfl rfl⟩

/-- Settles O10: `lh` prints by immediate-memory, with an unnamed base as its bits. -/
theorem lhDrivesItsPorts : Obligations.LhDrivesItsPorts :=
  ⟨fun rs rt imm s => congrArg _ (s.drive_immediateMemory 0b100001#6 rs rt imm .lh),
    decode_eq_instrOf_iff .lh, rfl, rfl, prints_of_decodePorts rfl rfl rfl⟩

/-- Settles O11: `lw` prints by immediate-memory, at an unaligned offset too. -/
theorem lwDrivesItsPorts : Obligations.LwDrivesItsPorts :=
  ⟨fun rs rt imm s => congrArg _ (s.drive_immediateMemory 0b100011#6 rs rt imm .lw),
    decode_eq_instrOf_iff .lw, rfl, rfl, prints_of_decodePorts rfl rfl rfl,
    prints_of_decodePorts rfl rfl rfl⟩

/-- Settles O12: `sb` prints by immediate-memory, up to the largest offset. -/
theorem sbDrivesItsPorts : Obligations.SbDrivesItsPorts :=
  ⟨fun rs rt imm s => congrArg _ (s.drive_immediateMemory 0b101000#6 rs rt imm .sb),
    decode_eq_instrOf_iff .sb, rfl, rfl, prints_of_decodePorts rfl rfl rfl⟩

/-- Settles O13: `sh` prints by immediate-memory, down to the most negative offset. -/
theorem shDrivesItsPorts : Obligations.ShDrivesItsPorts :=
  ⟨fun rs rt imm s => congrArg _ (s.drive_immediateMemory 0b101001#6 rs rt imm .sh),
    decode_eq_instrOf_iff .sh, rfl, rfl, prints_of_decodePorts rfl rfl rfl⟩

/-- Settles O14: `sw` prints by immediate-memory, and the offset 0 is printed. -/
theorem swDrivesItsPorts : Obligations.SwDrivesItsPorts :=
  ⟨fun rs rt imm s => congrArg _ (s.drive_immediateMemory 0b101011#6 rs rt imm .sw),
    decode_eq_instrOf_iff .sw, rfl, rfl, prints_of_decodePorts rfl rfl rfl⟩

end Sys2Proof.Machine
end

section
/-! PROOFS of the statements of 43_immediate_arithmetic.md: the renderer immediate-arithmetic, and the
five instructions that print by it. -/

namespace Sys2Proof.Machine

/-! ## The renderer immediate-arithmetic -/

/-- immediate-arithmetic prints rt, rs and the signed immediate (R83). -/
theorem render_immediateArithmetic (t : RegNames) (m : Mnemonic) (w : Word) :
    render t .immediateArithmetic m w = mnemonicText m ++ ", ".toList ++ regText t (rtOf w) ++
      ", ".toList ++ regText t (rsOf w) ++ ", ".toList ++ decInt (immOf w).toInt := by
  rw [render, renderImmediateArithmetic, immText_eq_decInt_toInt]

/-- immediate-arithmetic prints the registers of immediate-memory, so it flags those two, rt and rs
(R103). -/
theorem unresolved_immediateArithmetic (t : RegNames) (w : Word) :
    unresolved t .immediateArithmetic w =
      ((regName t (rtOf w)).isNone || (regName t (rsOf w)).isNone) :=
  unresolved_immediateMemory t w

/-- An immediate word driven with immediate-arithmetic has the text and the flag of its operands. -/
theorem State.drive_immediateArithmetic (s : State) (op : Opcode) (rs rt : RegIndex) (imm : Imm16)
    (m : Mnemonic) :
    s.drive (immediateWord op rs rt imm) .immediate m .immediateArithmetic =
      Claims.driven s (immediateWord op rs rt imm)
        (Claims.immediatePorts op rs rt imm m .immediateArithmetic
          ((regName s.regn rt).isNone || (regName s.regn rs).isNone)
          (mnemonicText m ++ ", ".toList ++ regText s.regn rt ++ ", ".toList ++ regText s.regn rs ++
            ", ".toList ++ decInt imm.toInt)) := by
  rw [State.drive_immediateWord, unresolved_immediateArithmetic, render_immediateArithmetic,
    rsOf_immediateWord, rtOf_immediateWord, immOf_immediateWord]

/-! ## The arithmetic family -/

/-- Each arithmetic opcode has a row of R66 with an arithmetic mnemonic and immediate-arithmetic. -/
theorem exists_arithmetic_row :
    ∀ o ∈ [0b001000#6, 0b001100#6, 0b001101#6, 0b001110#6, 0b001111#6],
      ∃ m ∈ [Mnemonic.addi, .andi, .ori, .xori, .liu],
        (o, .immediate m .immediateArithmetic) ∈ Claims.opcodeRows := by
  decide

/-- Settles O27: the opcode's row gives the mnemonic and the renderer, and the renderer gives the text,
with the signed immediate whatever the mnemonic, and the flag. -/
theorem arithmeticFamilyPrintsSignedImmediate : Obligations.ArithmeticFamilyPrintsSignedImmediate := by
  intro s w ws hs hw hopcode
  have hones : immOf w = 0xFFFF#16 → decInt (immOf w).toInt = "-1".toList := fun h => by rw [h]; rfl
  obtain ⟨m, hmem, hrow⟩ := exists_arithmetic_row _ hopcode
  exact ⟨hones, rfl, stepPorts_of_immediate_row hs hw hrow
    ⟨rfl, rfl, rfl, unresolved_immediateArithmetic s.regn w, m, rfl, hmem,
      render_immediateArithmetic s.regn m w⟩⟩

/-! ## The five instructions

Each drives the immediate word of its operands with immediate-arithmetic, and its words are those of its
row. -/

/-- Settles O15: `addi` prints by immediate-arithmetic, down to the most negative immediate. -/
theorem addiDrivesItsPorts : Obligations.AddiDrivesItsPorts :=
  ⟨fun rs rt imm s => congrArg _ (s.drive_immediateArithmetic 0b001000#6 rs rt imm .addi),
    decode_eq_instrOf_iff .addi, rfl, rfl, prints_of_decodePorts rfl rfl rfl,
    prints_of_decodePorts rfl rfl rfl⟩

/-- Settles O16: `andi` prints by immediate-arithmetic, and `0xFFFF` is the immediate -1. -/
theorem andiDrivesItsPorts : Obligations.AndiDrivesItsPorts :=
  ⟨fun rs rt imm s => congrArg _ (s.drive_immediateArithmetic 0b001100#6 rs rt imm .andi),
    decode_eq_instrOf_iff .andi, rfl, rfl, prints_of_decodePorts rfl rfl rfl⟩

/-- Settles O17: `ori` prints by immediate-arithmetic, in decimal. -/
theorem oriDrivesItsPorts : Obligations.OriDrivesItsPorts :=
  ⟨fun rs rt imm s => congrArg _ (s.drive_immediateArithmetic 0b001101#6 rs rt imm .ori),
    decode_eq_instrOf_iff .ori, rfl, rfl, prints_of_decodePorts rfl rfl rfl⟩

/-- Settles O18: `xori` prints by immediate-arithmetic, and `0x8001` is the immediate -32767. -/
theorem xoriDrivesItsPorts : Obligations.XoriDrivesItsPorts :=
  ⟨fun rs rt imm s => congrArg _ (s.drive_immediateArithmetic 0b001110#6 rs rt imm .xori),
    decode_eq_instrOf_iff .xori, rfl, rfl, prints_of_decodePorts rfl rfl rfl⟩

/-- Settles O19: `liu` prints by immediate-arithmetic, with rs and the immediate as they stand in the
word (R165's corner cases). -/
theorem liuDrivesItsPorts : Obligations.LiuDrivesItsPorts :=
  ⟨fun rs rt imm s => congrArg _ (s.drive_immediateArithmetic 0b001111#6 rs rt imm .liu),
    decode_eq_instrOf_iff .liu, rfl, rfl, prints_of_decodePorts rfl rfl rfl,
    prints_of_decodePorts rfl rfl rfl⟩

end Sys2Proof.Machine
end

section
/-! PROOFS of the statements of 44_immediate_branch.md: the renderers immediate-branch and
immediate-branch-single, and the two instructions that print by each. -/

namespace Sys2Proof.Machine

/-! ## The renderer immediate-branch -/

/-- immediate-branch prints rs, rt and the signed offset (R84). -/
theorem render_immediateBranch (t : RegNames) (m : Mnemonic) (w : Word) :
    render t .immediateBranch m w = mnemonicText m ++ ", ".toList ++ regText t (rsOf w) ++
      ", ".toList ++ regText t (rtOf w) ++ ", ".toList ++ decInt (immOf w).toInt := by
  rw [render, renderImmediateBranch, immText_eq_decInt_toInt]

/-- immediate-branch flags rs and rt (R103). -/
theorem unresolved_immediateBranch (t : RegNames) (w : Word) :
    unresolved t .immediateBranch w =
      ((regName t (rsOf w)).isNone || (regName t (rtOf w)).isNone) := by
  simp [unresolved, printedRegs, unnamed]

/-- An immediate word driven with immediate-branch has the text and the flag of its operands. -/
theorem State.drive_immediateBranch (s : State) (op : Opcode) (rs rt : RegIndex) (imm : Imm16)
    (m : Mnemonic) :
    s.drive (immediateWord op rs rt imm) .immediate m .immediateBranch =
      Claims.driven s (immediateWord op rs rt imm)
        (Claims.immediatePorts op rs rt imm m .immediateBranch
          ((regName s.regn rs).isNone || (regName s.regn rt).isNone)
          (mnemonicText m ++ ", ".toList ++ regText s.regn rs ++ ", ".toList ++ regText s.regn rt ++
            ", ".toList ++ decInt imm.toInt)) := by
  rw [State.drive_immediateWord, unresolved_immediateBranch, render_immediateBranch,
    rsOf_immediateWord, rtOf_immediateWord, immOf_immediateWord]

/-! ## The renderer immediate-branch-single -/

/-- immediate-branch-single prints rs and the signed offset (R85). -/
theorem render_immediateBranchSingle (t : RegNames) (m : Mnemonic) (w : Word) :
    render t .immediateBranchSingle m w = mnemonicText m ++ " ".toList ++ regText t (rsOf w) ++
      ", ".toList ++ decInt (immOf w).toInt := by
  rw [render, renderImmediateBranchSingle, immText_eq_decInt_toInt]

/-- immediate-branch-single flags rs alone (R103). -/
theorem unresolved_immediateBranchSingle (t : RegNames) (w : Word) :
    unresolved t .immediateBranchSingle w = (regName t (rsOf w)).isNone := by
  simp [unresolved, printedRegs, unnamed]

/-- An immediate word driven with immediate-branch-single has the text and the flag of its rs and imm,
whatever its rt. -/
theorem State.drive_immediateBranchSingle (s : State) (op : Opcode) (rs rt : RegIndex) (imm : Imm16)
    (m : Mnemonic) :
    s.drive (immediateWord op rs rt imm) .immediate m .immediateBranchSingle =
      Claims.driven s (immediateWord op rs rt imm)
        (Claims.immediatePorts op rs rt imm m .immediateBranchSingle (regName s.regn rs).isNone
          (mnemonicText m ++ " ".toList ++ regText s.regn rs ++ ", ".toList ++ decInt imm.toInt)) := by
  rw [State.drive_immediateWord, unresolved_immediateBranchSingle, render_immediateBranchSingle,
    rsOf_immediateWord, immOf_immediateWord]

/-! ## The branch family -/

/-- Each opcode of `beq` and `bne` has a row of R66 with one of the two and immediate-branch. -/
theorem exists_branch_row :
    ∀ o ∈ [0b000100#6, 0b000101#6], ∃ m ∈ [Mnemonic.beq, .bne],
      (o, .immediate m .immediateBranch) ∈ Claims.opcodeRows := by
  decide

/-- Each opcode of `blez` and `bgtz` has a row of R66 with one of the two and
immediate-branch-single. -/
theorem exists_branchSingle_row :
    ∀ o ∈ [0b000110#6, 0b000111#6], ∃ m ∈ [Mnemonic.blez, .bgtz],
      (o, .immediate m .immediateBranchSingle) ∈ Claims.opcodeRows := by
  decide

/-- Settles O28: the opcode's row gives the mnemonic and one of the two renderers, and each renderer ends
its text with the offset as it stands in the word. -/
theorem branchFamilyPrintsRawOffset : Obligations.BranchFamilyPrintsRawOffset := by
  intro s w ws hs hw
  constructor
  · intro hopcode
    obtain ⟨m, hmem, hrow⟩ := exists_branch_row _ hopcode
    exact stepPorts_of_immediate_row hs hw hrow
      ⟨rfl, rfl, rfl, m, rfl, hmem, render_immediateBranch s.regn m w⟩
  · intro hopcode
    obtain ⟨m, hmem, hrow⟩ := exists_branchSingle_row _ hopcode
    exact stepPorts_of_immediate_row hs hw hrow
      ⟨rfl, rfl, rfl, m, rfl, hmem, render_immediateBranchSingle s.regn m w⟩

/-! ## The four instructions

Each drives the immediate word of its operands with its renderer, and its words are those of its row. -/

/-- Settles O20: `beq` prints by immediate-branch, with rs and rt the same register too. -/
theorem beqDrivesItsPorts : Obligations.BeqDrivesItsPorts :=
  ⟨fun rs rt imm s => congrArg _ (s.drive_immediateBranch 0b000100#6 rs rt imm .beq),
    decode_eq_instrOf_iff .beq, rfl, rfl, prints_of_decodePorts rfl rfl rfl,
    prints_of_decodePorts rfl rfl rfl⟩

/-- Settles O21: `bne` prints by immediate-branch, up to the largest offset. -/
theorem bneDrivesItsPorts : Obligations.BneDrivesItsPorts :=
  ⟨fun rs rt imm s => congrArg _ (s.drive_immediateBranch 0b000101#6 rs rt imm .bne),
    decode_eq_instrOf_iff .bne, rfl, rfl, prints_of_decodePorts rfl rfl rfl⟩

/-- Settles O22: `blez` prints by immediate-branch-single, with any rt. -/
theorem blezDrivesItsPorts : Obligations.BlezDrivesItsPorts :=
  ⟨fun rs rt imm s => congrArg _ (s.drive_immediateBranchSingle 0b000110#6 rs rt imm .blez),
    decode_eq_instrOf_iff .blez, rfl, rfl, prints_of_decodePorts rfl rfl rfl,
    prints_of_decodePorts rfl rfl rfl⟩

/-- Settles O23: `bgtz` prints by immediate-branch-single, with an unnamed rs as its bits. -/
theorem bgtzDrivesItsPorts : Obligations.BgtzDrivesItsPorts :=
  ⟨fun rs rt imm s => congrArg _ (s.drive_immediateBranchSingle 0b000111#6 rs rt imm .bgtz),
    decode_eq_instrOf_iff .bgtz, rfl, rfl, prints_of_decodePorts rfl rfl rfl,
    prints_of_decodePorts rfl rfl rfl⟩

end Sys2Proof.Machine
end

section
/-! PROOFS of the statements of 45_jump.md: the ports of a jump word, the renderer jump-target, and the
one opcode that selects the jump format. -/

namespace Sys2Proof.Machine

/-! ## The ports of a jump word -/

/-- Driving a jump word drives the ports that its address gives. -/
theorem State.drive_jumpWord (s : State) (op : Opcode) (address : Addr26) (m : Mnemonic)
    (r : Renderer) :
    s.drive (jumpWord op address) .jump m r =
      Claims.driven s (jumpWord op address)
        (Claims.jumpPorts op address m r (unresolved s.regn r (jumpWord op address))
          (render s.regn r m (jumpWord op address))) := by
  simp [State.drive, Claims.driven, okPorts, Claims.jumpPorts, sextImm]

/-! ## The renderer jump-target -/

/-- jump-target prints the unsigned address after the literal `j`, whatever the mnemonic and REG_NAMES
(R81). -/
theorem render_jumpTarget (t : RegNames) (m : Mnemonic) (w : Word) :
    render t .jumpTarget m w = "j ".toList ++ decNat (addressOf w).toNat := by
  rw [render, renderJumpTarget, addressText]

/-- jump-target prints no register, so it flags none (R103). -/
theorem unresolved_jumpTarget (t : RegNames) (w : Word) : unresolved t .jumpTarget w = false := by
  simp [unresolved, printedRegs]

/-- A jump word driven with jump-target has the text of its address, and no flag. -/
theorem State.drive_jumpTarget (s : State) (op : Opcode) (address : Addr26) (m : Mnemonic) :
    s.drive (jumpWord op address) .jump m .jumpTarget =
      Claims.driven s (jumpWord op address)
        (Claims.jumpPorts op address m .jumpTarget false ("j ".toList ++ decNat address.toNat)) := by
  rw [State.drive_jumpWord, unresolved_jumpTarget, render_jumpTarget, addressOf_jumpWord]

/-! ## The jump format -/

/-- The one opcode with a jump entry is `000010` (R66). -/
theorem entryFormat_opcRom_eq_jump_iff (o : Opcode) :
    entryFormat (opcEntry opcRom o) = .jump ↔ o = 0b000010#6 := by
  rw [entryFormat_opcRom]
  split_ifs with hzero hjump hundefined
  · simp [hzero]
  · simp [hjump]
  · simp [hjump]
  · simp [hjump]

/-- Settles O29: the format is that of the opcode's entry, and `0x0C000005` has the opcode `000011`,
which R68 lists as undefined. -/
theorem onlyOneOpcodeIsAJump : Obligations.OnlyOneOpcodeIsAJump := by
  constructor
  · intro s w ws hs hw
    apply stepPorts_of_decodePorts hs hw
    rw [decodePorts_fmt]
    exact entryFormat_opcRom_eq_jump_iff (opcodeOf w)
  · intro s ws hs hw
    have hopcode : opcodeOf 0x0C000005#32 = 0b000011#6 := by decide
    have hentry : opcEntry opcRom 0b000011#6 = none :=
      (opcEntry_opcRom_eq_none_iff _).2 (by decide)
    refine ⟨hs.opc ▸ hentry, stepPorts_of_decodePorts hs hw ?_⟩
    rw [decodePorts_invalidOpcode (hopcode ▸ hentry)]
    exact ⟨rfl, rfl⟩

/-! ## The instruction -/

/-- Settles O24: `j` drives the jump word of its address with jump-target, its words are those of its
row, and the unsigned address is printed from 0 to the largest (R200's corner cases). -/
theorem jDrivesItsPorts : Obligations.JDrivesItsPorts :=
  ⟨fun address s => congrArg _ (s.drive_jumpTarget 0b000010#6 address .j),
    decode_eq_instrOf_iff .j, rfl, rfl, prints_of_decodePorts rfl rfl rfl,
    prints_of_decodePorts rfl rfl rfl, prints_of_decodePorts rfl rfl rfl⟩

end Sys2Proof.Machine
end

section
/-! PROOFS of the statements of 60_exceptions.md: the codes on the enumeration ports, the line that is
skipped, the one fault, and the order in which the conditions on a line decide its outcome. -/

namespace Sys2Proof.Machine

/-! ## The codes on the enumeration ports -/

/-- No status has the code 3, which the block never drives (R211). -/
theorem statusCode_ne_three (st : Status) : statusCode st ≠ 3#2 := by
  cases st <;> decide

/-- The codes of the mnemonics end at 23 (R87). -/
theorem toNat_mnemCode_some_lt (m : Mnemonic) : (mnemCode (some m)).toNat < 24 := by
  cases m <;> decide

/-- The codes of the renderers end at 7 (R77). -/
theorem toNat_rendCode_some_lt (r : Renderer) : (rendCode (some r)).toNat < 8 := by
  cases r <;> decide

/-- Settles O46: each code is its table's, and no value has one of the codes that are never driven. -/
theorem portCodesAreTheSpecs : Obligations.PortCodesAreTheSpecs :=
  ⟨rfl, rfl, rfl, statusCode_ne_three, rfl, rfl, rfl, rfl, rfl, toNat_mnemCode_some_lt, rfl,
    toNat_rendCode_some_lt, rfl⟩

/-! ## A line of another length -/

/-- The host skips a line whose trimmed length is not 32, whatever the tables hold. -/
theorem runLine_of_length_ne {raw : Text} (h : (trim raw).length ≠ 32) (s : State) :
    runLine raw s = .next s.skipLine := by
  simp [runLine, classifyLine, lineKept, h]

/-- Settles O51: skipping a line leaves the output lines, the count and the results. -/
theorem wrongLengthLineIsSkipped : Obligations.WrongLengthLineIsSkipped := by
  intro s l ls ⟨hw, hl⟩ hlen
  exact ⟨_, (step_line hw hl).trans (runLine_of_length_ne hlen _), rfl, rfl, rfl, rfl⟩

/-! ## The one fault -/

/-- The condition of R47's second branch on a raw line: it is kept, its opcode string is a key, and a
non-binary character stands after that. -/
def FaultingLine (raw : Text) : Prop :=
  (trim raw).length = 32 ∧ (trim raw).take 6 ∈ Claims.opcodeStrings ∧
    ∃ c ∈ (trim raw).drop 6, Claims.NonBinary c

/-- With the tables of the spec, the first six characters of a kept line are a key of `OPC` exactly when
they are one of the 17 opcode strings. -/
theorem opcodeStringDefined_take_iff {s : State} (hs : s.RomOk) {raw : Text}
    (hlen : (trim raw).length = 32) :
    opcodeStringDefined s.opc ((trim raw).take 6) = true ↔
      (trim raw).take 6 ∈ Claims.opcodeStrings :=
  hs.opc ▸ opcodeStringDefined_iff (by simp [hlen])

/-- No other first six characters of a kept line are a key. -/
theorem opcodeStringDefined_take_eq_false {s : State} (hs : s.RomOk) {raw : Text}
    (hlen : (trim raw).length = 32) (hkey : (trim raw).take 6 ∉ Claims.opcodeStrings) :
    opcodeStringDefined s.opc ((trim raw).take 6) = false :=
  Bool.eq_false_iff.2 (mt (opcodeStringDefined_take_iff hs hlen).1 hkey)

/-- A line is binary when it begins with an opcode string and no non-binary character stands after it. -/
theorem all_isBinary_of_opcodeString {k : Text} (hkey : k.take 6 ∈ Claims.opcodeStrings)
    (hc : ¬ ∃ c ∈ k.drop 6, Claims.NonBinary c) : k.all isBinary = true := by
  obtain ⟨-, htake, -⟩ := opcodeStrings_defined _ hkey
  exact (all_isBinary_iff_take_drop k).2 ⟨htake, (all_isBinary_iff _).2 hc⟩

/-- The pseudocode of R47 faults on the lines of its second branch alone. -/
theorem lineResult_eq_nonBinary_iff {s : State} (hs : s.RomOk) (raw : Text) :
    lineResult s.opc s.fn s.regn raw = .nonBinary ↔ FaultingLine raw := by
  constructor
  · intro h
    have hlen : (trim raw).length = 32 := by
      by_contra hne
      cases (lineResult_of_length_ne hne).symm.trans h
    have hkey : (trim raw).take 6 ∈ Claims.opcodeStrings := by
      by_contra hno
      have hdef := opcodeStringDefined_take_eq_false hs hlen hno
      cases (lineResult_of_undefined hlen hdef).symm.trans h
    refine ⟨hlen, hkey, ?_⟩
    by_contra hc
    cases (lineResult_of_binary hlen (all_isBinary_of_opcodeString hkey hc)).symm.trans h
  · rintro ⟨hlen, hkey, hc⟩
    exact lineResult_of_nonBinary hlen ((opcodeStringDefined_take_iff hs hlen).2 hkey) hc

/-- The host faults on the lines of R47's second branch alone, and names the count of kept lines. -/
theorem runLine_eq_fault_iff {s : State} (hs : s.RomOk) (raw : Text) (f : Fault) :
    runLine raw s = .fault f ↔ f = .nonBinary s.kept ∧ FaultingLine raw := by
  rw [← lineResult_eq_nonBinary_iff hs]
  obtain ⟨-, hr, hrun⟩ | ⟨-, hr, hrun⟩ | ⟨-, x, i, p, o, hr, hrun⟩ := runLine_follows_lineResult hs raw
  · simp [hr, hrun]
  · simp [hr, hrun, eq_comm]
  · simp [hr, hrun]

/-- The block never faults (R107), whatever the tables hold. -/
theorem runWord_ne_fault (w : Word) (s : State) (f : Fault) : runWord w s ≠ .fault f := by
  obtain ⟨v, p, o, h⟩ := runWord_next w s
  simp [h]

/-- Of the five items a step can meet, only a raw line can fault. -/
theorem step_eq_fault_iff {s : State} (hs : s.RomOk) (f : Fault) :
    step s = .fault f ↔
      f = .nonBinary s.kept ∧ s.words = [] ∧ ∃ l ls, s.lines = some (l :: ls) ∧ FaultingLine l := by
  obtain ⟨_, ws, hw⟩ | ⟨hw, l, ls, hl⟩ | ⟨hw, hl⟩ | ⟨hw, hl, g, fs, hf⟩ | ⟨hw, hl, hf⟩ := item_cases s
  case inl => simp [step_word hw, hw, runWord_ne_fault]
  case inr.inl =>
    rw [step_line hw hl, runLine_eq_fault_iff (hs.setLines (some ls))]
    simp [hw, hl]
  case inr.inr.inl => simp [step_close hw hl, hl]
  case inr.inr.inr.inl => simp [step_open hw hl hf, hl]
  case inr.inr.inr.inr => simp [step_idle hw hl hf, hl]

/-- Settles O57: only the line rule faults, a run ends in the fault of its first step, and a word on the
port always goes on. -/
theorem onlyTheLineRuleFaults : Obligations.OnlyTheLineRuleFaults := by
  refine fun s f hs => ⟨step_eq_fault_iff hs f, fun h n hn => ?_, fun w g => runWord_ne_fault w s g⟩
  obtain ⟨k, rfl⟩ := Nat.exists_eq_succ_of_ne_zero hn.ne'
  exact run_succ_of_fault (M := core) h k

/-! ## The order of the conditions -/

/-- What the host shows after a line of 32 bits, read from the ports `p` of its word. -/
theorem runLine_of_decodePorts {s : State} (hs : s.RomOk) {raw : Text} (hlen : (trim raw).length = 32)
    (hbin : (trim raw).all isBinary = true) {p : Ports}
    (hp : decodePorts s.opc s.fn s.regn (wordOfLine (trim raw)) = p) :
    ∃ t, runLine raw s = .next t ∧ t.lastOutcome = some (Claims.statusOutcome p.status) ∧
      t.ports = some p ∧ t.outLines = s.outLines ++ [p.text] := by
  subst hp
  exact ⟨_, runLine_of_binary hs hlen hbin, rfl, rfl, rfl⟩

/-- A kept line whose opcode string is no key is an invalid opcode, whether or not it is a word. -/
theorem runLine_of_undefined {s : State} (hs : s.RomOk) {raw : Text} (hlen : (trim raw).length = 32)
    (hdef : opcodeStringDefined s.opc ((trim raw).take 6) = false) :
    ∃ t, runLine raw s = .next t ∧ t.lastOutcome = some .invalidOpcode ∧
      t.outLines = s.outLines ++ [invalidText] := by
  by_cases hbin : (trim raw).all isBinary = true
  · have htake := ((all_isBinary_iff_take_drop _).1 hbin).1
    have hentry : opcEntry s.opc (opcodeOf (wordOfLine (trim raw))) = none := by
      rw [opcodeOf_wordOfLine hlen]
      simpa [opcodeStringDefined, htake] using hdef
    obtain ⟨t, hrun, hout, -, hlines⟩ :=
      runLine_of_decodePorts hs hlen hbin (decodePorts_invalidOpcode hentry)
    exact ⟨t, hrun, hout, hlines⟩
  · have hclass : classifyLine s.opc raw = .invalidOpcode := by
      simp only [classifyLine, lineKept, hlen, hbin, hdef]; rfl
    exact ⟨_, by rw [runLine, hclass], rfl, rfl⟩

/-- A kept line that begins with an opcode string holds a word with a defined opcode. -/
theorem opcEntry_of_opcodeString {l : Text} (hlen : l.length = 32)
    (hkey : l.take 6 ∈ Claims.opcodeStrings) :
    (opcEntry opcRom (opcodeOf (wordOfLine l))).isSome = true := by
  rw [opcodeOf_wordOfLine hlen]
  obtain ⟨-, -, hdef⟩ := opcodeStrings_defined _ hkey
  exact ((Bool.and_eq_true _ _).mp hdef).2

/-- The opcode string `000000` is that of opcode `000000`. -/
theorem take_eq_zeros_iff {l : Text} (hlen : l.length = 32) (hbin : (l.take 6).all isBinary = true) :
    l.take 6 = "000000".toList ↔ opcodeOf (wordOfLine l) = 0b000000#6 := by
  rw [opcodeOf_wordOfLine hlen]
  refine ⟨fun h => h ▸ rfl, fun h => ?_⟩
  exact eq_of_ofNat_bitsValue_eq hbin (by decide) (by simp [hlen]) rfl (h.trans rfl)

/-- A word with a defined opcode, and under `000000` a defined function code, has the ports of an `OK`
word. -/
theorem decodePorts_eq_okPorts {w : Word} (ho : (opcEntry opcRom (opcodeOf w)).isSome = true)
    (hf : ¬ (opcodeOf w = 0b000000#6 ∧ functOf w ∈ Claims.undefinedFuncts)) (t : RegNames) :
    ∃ f m r, decodePorts opcRom funRom t w = okPorts t w f m r := by
  obtain ⟨entry, hentry⟩ := Option.isSome_iff_exists.1 ho
  cases entry with
  | immediate m r => exact ⟨_, m, r, decodePorts_immediate hentry⟩
  | jump m r => exact ⟨_, m, r, decodePorts_jump hentry⟩
  | register =>
    have hzero := opcode_eq_zero_of_register_row ((opcEntry_opcRom_eq_some_iff _ _).1 hentry)
    obtain ⟨e, he⟩ := Option.ne_none_iff_exists'.1
      (mt (funEntry_funRom_eq_none_iff (functOf w)).1 fun hmem => hf ⟨hzero, hmem⟩)
    exact ⟨_, _, _, decodePorts_register hentry he⟩

/-- A kept line that begins with `000000` and holds a word with an undefined function code is an invalid
function code, and no register name is looked up. -/
theorem runLine_of_undefinedFunct {s : State} (hs : s.RomOk) {raw : Text}
    (hlen : (trim raw).length = 32) (hbin : (trim raw).all isBinary = true)
    (ho : opcodeOf (wordOfLine (trim raw)) = 0b000000#6)
    (hf : functOf (wordOfLine (trim raw)) ∈ Claims.undefinedFuncts) :
    ∃ t p, runLine raw s = .next t ∧ t.lastOutcome = some .invalidFunct ∧ t.ports = some p ∧
      p.status = .invalidFunct ∧ p.regUnresolved = false := by
  have hentry : opcEntry s.opc (opcodeOf (wordOfLine (trim raw))) = some .register := by
    rw [hs.opc, ho, opcEntry_opcRom_zero]
  have hfun : funEntry s.fn (functOf (wordOfLine (trim raw))) = none := by
    rw [hs.fn, (funEntry_funRom_eq_none_iff _).2 hf]
  obtain ⟨t, hrun, hout, hports, -⟩ :=
    runLine_of_decodePorts hs hlen hbin (decodePorts_invalidFunct hentry hfun)
  exact ⟨t, _, hrun, hout, hports, rfl, rfl⟩

/-- A kept line that holds a word with defined codes is `OK`, and the flag is set by the names of the
fields that its renderer prints. -/
theorem runLine_of_definedCodes {s : State} (hs : s.RomOk) {raw : Text}
    (hlen : (trim raw).length = 32) (hbin : (trim raw).all isBinary = true)
    (ho : (opcEntry opcRom (opcodeOf (wordOfLine (trim raw)))).isSome = true)
    (hf : ¬ (opcodeOf (wordOfLine (trim raw)) = 0b000000#6 ∧
      functOf (wordOfLine (trim raw)) ∈ Claims.undefinedFuncts)) :
    ∃ t p r, runLine raw s = .next t ∧ t.lastOutcome = some .ok ∧ t.ports = some p ∧ p.status = .ok ∧
      p.rend = some r ∧
      (p.regUnresolved = true ↔ ∃ f ∈ Claims.printedFields r p, regName s.regn f = none) := by
  obtain ⟨f, m, r, hok⟩ := decodePorts_eq_okPorts ho hf s.regn
  rw [← hs.opc, ← hs.fn] at hok
  obtain ⟨t, hrun, hout, hports, -⟩ := runLine_of_decodePorts hs hlen hbin hok
  refine ⟨t, _, r, hrun, hout, hports, rfl, rfl, ?_⟩
  rw [printedFields_okPorts]
  exact unresolved_eq_true_iff s.regn r _

/-- Settles O59: the length decides first, then the opcode string, then the characters after it; what is
left is a word with a defined opcode, and under `000000` its function code decides. -/
theorem firstConditionDecidesTheOutcome : Obligations.FirstConditionDecidesTheOutcome := by
  intro s l ls hs ⟨hw, hl⟩
  have hs' := hs.setLines (some ls)
  rw [step_line hw hl]
  by_cases hlen : (trim l).length = 32
  case neg =>
    rw [if_pos hlen]
    exact ⟨_, runLine_of_length_ne hlen _, rfl, rfl⟩
  by_cases hkey : (trim l).take 6 ∈ Claims.opcodeStrings
  case neg =>
    rw [if_neg (not_not.2 hlen), if_pos hkey]
    exact runLine_of_undefined hs' hlen (opcodeStringDefined_take_eq_false hs hlen hkey)
  by_cases hc : ∃ c ∈ (trim l).drop 6, Claims.NonBinary c
  case pos =>
    rw [if_neg (not_not.2 hlen), if_neg (not_not.2 hkey), if_pos hc]
    exact (runLine_eq_fault_iff hs' l _).2 ⟨rfl, hlen, hkey, hc⟩
  have hbin := all_isBinary_of_opcodeString hkey hc
  have hzero := take_eq_zeros_iff hlen ((all_isBinary_iff_take_drop _).1 hbin).1
  rw [if_neg (not_not.2 hlen), if_neg (not_not.2 hkey), if_neg hc]
  split_ifs with hfun
  · exact runLine_of_undefinedFunct hs' hlen hbin (hzero.1 hfun.1) hfun.2
  · exact runLine_of_definedCodes hs' hlen hbin (opcEntry_of_opcodeString hlen hkey)
      fun ⟨ho, hf⟩ => hfun ⟨hzero.2 ho, hf⟩

end Sys2Proof.Machine
end

section
/-! PROOFS of the statements of 70_reset_and_hazards.md: the one condition under which a step is
refused. -/

namespace Sys2Proof.Machine

/-- A word on the port is never refused, whatever the tables hold. -/
theorem runWord_ne_refused (w : Word) (s : State) (r : Refusal) : runWord w s ≠ .refused r := by
  obtain ⟨v, p, o, h⟩ := runWord_next w s
  simp [h]

/-- A raw line goes on or faults, and is never refused. -/
theorem runLine_ne_refused (raw : Text) (s : State) (r : Refusal) : runLine raw s ≠ .refused r := by
  obtain ⟨-, h⟩ | ⟨-, h⟩ | ⟨-, h⟩ | ⟨w, t, -, -, h⟩ := runLine_cases raw s <;> simp [h]

/-- Settles O58: of the five items a step can meet, the first four go on or fault, and the last, where
the host has nothing to present, is the one refusal. -/
theorem refusalMeansNothingToPresent : Obligations.RefusalMeansNothingToPresent := by
  intro s r
  obtain ⟨_, ws, hw⟩ | ⟨hw, l, ls, hl⟩ | ⟨hw, hl⟩ | ⟨hw, hl, f, fs, hf⟩ | ⟨hw, hl, hf⟩ := item_cases s
  case inl => simp [step_word hw, runWord_ne_refused, hw]
  case inr.inl => simp [step_line hw hl, runLine_ne_refused, hl]
  case inr.inr.inl => simp [step_close hw hl, hl]
  case inr.inr.inr.inl => simp [step_open hw hl hf, hf]
  case inr.inr.inr.inr => simp [step_idle hw hl hf, hw, hl, hf, eq_comm]

end Sys2Proof.Machine
end
